-- ==== Sys2Proof/Word.lean ====
section
/-! DEFINITION. The words of the controller: what the spec treats as bits. -/

namespace Sys2Proof

/-- An 8-bit register, bus byte or peripheral register address (R34, R69). -/
abbrev Byte := BitVec 8

/-- A 16-bit command word (R80); bit 0 is the least significant bit (R10). -/
abbrev CmdWord := BitVec 16

/-- An index of the host register space, 0 to 255 (R60). -/
abbrev RegIndex := BitVec 8

end Sys2Proof
end

