-- ==== Sys2Proof/Syntax.lean ====
section
/-! DEFINITION. The value sets of R11 that stand in commands, and the commands themselves: one constructor per row
of the opcode table (R84). Operands are already in the terms of R83; their ranges are checked in WellFormed. -/

namespace Sys2Proof

/-- The two bus lines (R11). -/
inductive Line where
  | clock
  | data
deriving DecidableEq, Repr, Inhabited

/-- The direction of a line (R11, R22). -/
inductive Dir where
  | input
  | output
deriving DecidableEq, Repr, Inhabited

/-- The level of a line (R11, R22). -/
inductive Level where
  | low
  | high
deriving DecidableEq, Repr, Inhabited

/-- The symbolic acknowledgement value (R11); its line level is a parameter (R162). -/
inductive Ack where
  | ack
  | nack
deriving DecidableEq, Repr, Inhabited

/-- The commands of the controller (R84, R85). -/
inductive Instr where
  /-- BCD r, i: split a register byte into decimal digits (R204). -/
  | bcd (r : Nat) (i : Byte)
  /-- SETDIR l, v: set the direction of a line (R115). -/
  | setdir (l : Line) (v : Dir)
  /-- SETLVL l, v: set the driver level of a line (R116). -/
  | setlvl (l : Line) (v : Level)
  /-- READLVL l: read the level of a line (R117). -/
  | readlvl (l : Line)
  /-- DELAY n: wait n µs (R118). -/
  | delay (n : Nat)
  /-- START: open a transaction, or issue a repeated START (R142). -/
  | start
  /-- STOP: close the transaction (R143). -/
  | stop
  /-- SENDBIT b: send one bit (R164). -/
  | sendbit (b : Bool)
  /-- RECVBIT: receive one bit (R165). -/
  | recvbit
  /-- SENDBYTE i: send eight bits (R166). -/
  | sendbyte (i : Byte)
  /-- RECVBYTE: receive eight bits (R167). -/
  | recvbyte
  /-- SENDACK a: send an acknowledgement bit (R168). -/
  | sendack (a : Ack)
  /-- RECVACK: receive an acknowledgement bit (R169). -/
  | recvack
  /-- SEND i: send a byte and receive its acknowledgement (R170). -/
  | send (i : Byte)
  /-- RECV a: receive a byte and send an acknowledgement (R171). -/
  | recv (a : Ack)
  /-- INITP: write the configuration block of the peripheral (R202). -/
  | initp
  /-- READBLK i, count: read `count` peripheral registers from address `i` (R203; the operands in the order of R88). -/
  | readblk (i : Byte) (count : Nat)
deriving DecidableEq, Repr

/-- The pseudo-instructions of R89. -/
inductive Pseudo where
  | nop
  | rstart
  | businit
deriving DecidableEq, Repr

end Sys2Proof
end

