-- ==== Sys2Proof/WellFormed.lean ====
section
/-! DEFINITION. Which commands have a word: the operand ranges of R8, R83 and R88. -/

namespace Sys2Proof

/-- The range checks of R88: `bcd R, I` (0 to 7), `delay N` (0 to 4095), `readblk I, K` (1 to 8). Every other operand
is in range by its type. -/
def Instr.wellFormed : Instr → Bool
  | .bcd r _ => decide (r ≤ 7)
  | .delay n => decide (n ≤ 4095)
  | .readblk _ count => decide (1 ≤ count ∧ count ≤ 8)
  | .setdir _ _ | .setlvl _ _ | .readlvl _ | .start | .stop | .sendbit _ | .recvbit | .sendbyte _ | .recvbyte
  | .sendack _ | .recvack | .send _ | .recv _ | .initp => true

/-- A command whose operands are all in range (R88). -/
abbrev WellFormed (i : Instr) : Prop := i.wellFormed = true

end Sys2Proof
end

