-- ==== Sys2Proof/Decode.lean ====
section
/-! DEFINITION. The opcode map (R84), decoding of a command word (R82, R83, R87), the encoder (R88), and the expansion
of the pseudo-instructions (R89). -/

namespace Sys2Proof

/-! ## Operand fields (R83) -/

/-- `l`: 0 = CLOCK, 1 = DATA. -/
def lineOfBit (b : Bool) : Line := if b then .data else .clock

/-- `v` in SETDIR: 0 = INPUT, 1 = OUTPUT. -/
def dirOfBit (b : Bool) : Dir := if b then .output else .input

/-- `v` in SETLVL, and `level(b)` of R11: 0 = LOW, 1 = HIGH. -/
def levelOfBit (b : Bool) : Level := if b then .high else .low

/-- `b` in SENDACK and `a` in RECV: 0 = ACK, 1 = NACK. -/
def ackOfBit (b : Bool) : Ack := if b then .nack else .ack

/-- The field bit of a line. -/
def Line.toBit : Line → Bool
  | .clock => false
  | .data => true

/-- The field bit of a direction. -/
def Dir.toBit : Dir → Bool
  | .input => false
  | .output => true

/-- `bit(v)` of R11. -/
def Level.toBit : Level → Bool
  | .low => false
  | .high => true

/-- The field bit of an acknowledgement operand. -/
def Ack.toBit : Ack → Bool
  | .ack => false
  | .nack => true

/-- The field at bits [7:0] (formats Y, S and C of R82). -/
def byteField (w : CmdWord) : Byte := w.extractLsb' 0 8

/-- The field at bits [10:8] (`c` of format S, `r` of format C). -/
def threeBitField (w : CmdWord) : Nat := (w.extractLsb' 8 3).toNat

/-- The field at bits [11:0] (`n` of format D). -/
def delayField (w : CmdWord) : Nat := (w.extractLsb' 0 12).toNat

/-! ## The opcode map -/

/-- One row of the opcode map: a word `w` selects it if `w & mask = pat`; `build` takes the fields of its format. -/
structure OpRow where
  pat : CmdWord
  mask : CmdWord
  build : CmdWord → Instr

/-- `(w & mask) = match` (R84). -/
def OpRow.selects (row : OpRow) (w : CmdWord) : Bool := w &&& row.mask == row.pat

/-- The opcode map of R84, in its order, without the illegal row. -/
def opcodeTable : List OpRow :=
  [ { pat := 0x0800, mask := 0xF800, build := fun w => .bcd (threeBitField w) (byteField w) },
    { pat := 0x1000, mask := 0xFCFF, build := fun w => .setdir (lineOfBit (w.getLsbD 8)) (dirOfBit (w.getLsbD 9)) },
    { pat := 0x2000, mask := 0xFCFF, build := fun w => .setlvl (lineOfBit (w.getLsbD 8)) (levelOfBit (w.getLsbD 9)) },
    { pat := 0x3000, mask := 0xFEFF, build := fun w => .readlvl (lineOfBit (w.getLsbD 8)) },
    { pat := 0x4000, mask := 0xF000, build := fun w => .delay (delayField w) },
    { pat := 0x5000, mask := 0xFFFF, build := fun _ => .start },
    { pat := 0x6000, mask := 0xFFFF, build := fun _ => .stop },
    { pat := 0x7000, mask := 0xFFFE, build := fun w => .sendbit (w.getLsbD 0) },
    { pat := 0x8000, mask := 0xFFFF, build := fun _ => .recvbit },
    { pat := 0x9000, mask := 0xFF00, build := fun w => .sendbyte (byteField w) },
    { pat := 0xA000, mask := 0xFFFF, build := fun _ => .recvbyte },
    { pat := 0xB000, mask := 0xFFFE, build := fun w => .sendack (ackOfBit (w.getLsbD 0)) },
    { pat := 0xC000, mask := 0xFFFF, build := fun _ => .recvack },
    { pat := 0xD000, mask := 0xFF00, build := fun w => .send (byteField w) },
    { pat := 0xE000, mask := 0xFEFF, build := fun w => .recv (ackOfBit (w.getLsbD 8)) },
    { pat := 0xF000, mask := 0xFFFF, build := fun _ => .initp },
    { pat := 0xF800, mask := 0xF800, build := fun w => .readblk (byteField w) (threeBitField w + 1) } ]

/-- Why a word is illegal (R86). The three kinds together are every word that no row selects. -/
inductive Illegal where
  /-- OP = 0x0 with bit [11] = 0. -/
  | op0Subopcode
  /-- OP = 0xF with bit [11] = 0, and not INITP's word: R86 names bits [11:8] from 0b0001 to 0b0111, and the words
  0xF001 to 0xF0FF are illegal by INITP's mask (R84; log 8). -/
  | opFSubopcode
  /-- OP 0x1 to 0xE with a must-be-zero bit set. -/
  | mustBeZero
deriving DecidableEq, Repr

/-- The kind of an illegal word (R86). -/
def illegalKind (w : CmdWord) : Illegal :=
  if w.extractLsb' 12 4 = 0x0#4 then .op0Subopcode
  else if w.extractLsb' 12 4 = 0xF#4 then .opFSubopcode
  else .mustBeZero

/-- The search of R87 through the rows of the opcode map. -/
def decodeRows (w : CmdWord) : List OpRow → Except Illegal Instr
  | [] => .error (illegalKind w)
  | row :: rows => if row.selects w then .ok (row.build w) else decodeRows w rows

/-- `decode` of R87, total on all 65536 words. -/
def decode (w : CmdWord) : Except Illegal Instr := decodeRows w opcodeTable

/-- The decoder as the host asks for it: the word is the low `nbits` bits of `w`, the bits above them 0. A command is
one whole word, so no byte order enters (R67, R80; log 15). -/
def decodeTableWord (nbits w : Nat) : Option Instr := (decode (BitVec.ofNat 16 (w % 2 ^ nbits))).toOption

/-! ## The encoder -/

/-- A field value `v`, shifted to its lowest bit `lsb`. -/
def fieldAt (lsb v : Nat) : CmdWord := BitVec.ofNat 16 v <<< lsb

/-- The word of a well-formed command: the table of R88. -/
def encode : Instr → CmdWord
  | .bcd r i => 0x0800 ||| fieldAt 8 r ||| fieldAt 0 i.toNat
  | .setdir l v => 0x1000 ||| fieldAt 9 v.toBit.toNat ||| fieldAt 8 l.toBit.toNat
  | .setlvl l v => 0x2000 ||| fieldAt 9 v.toBit.toNat ||| fieldAt 8 l.toBit.toNat
  | .readlvl l => 0x3000 ||| fieldAt 8 l.toBit.toNat
  | .delay n => 0x4000 ||| fieldAt 0 n
  | .start => 0x5000
  | .stop => 0x6000
  | .sendbit b => 0x7000 ||| fieldAt 0 b.toNat
  | .recvbit => 0x8000
  | .sendbyte i => 0x9000 ||| fieldAt 0 i.toNat
  | .recvbyte => 0xA000
  | .sendack a => 0xB000 ||| fieldAt 0 a.toBit.toNat
  | .recvack => 0xC000
  | .send i => 0xD000 ||| fieldAt 0 i.toNat
  | .recv a => 0xE000 ||| fieldAt 8 a.toBit.toNat
  | .initp => 0xF000
  | .readblk i count => 0xF800 ||| fieldAt 8 (count - 1) ||| fieldAt 0 i.toNat

/-- The assembler's word for a command: an operand out of range is an error and gives no word (R88). -/
def assemble (i : Instr) : Option CmdWord := if i.wellFormed then some (encode i) else none

/-- The commands a pseudo-instruction stands for (R89). -/
def Pseudo.expand : Pseudo → List Instr
  | .nop => [.delay 0]
  | .rstart => [.start]
  | .businit => [.setdir .clock .output, .setlvl .clock .high]

end Sys2Proof
end

