-- ==== Sys2Proof/Config.lean ====
section
/-! DEFINITION. What an implementation fixes (R8, R64) and the free values. -/

namespace Sys2Proof

/-- The implementation parameters of R8 and the HOST_BASE of R64. They are fixed when the model is instantiated
(R45). A state carries them (log 1), so a claim about every state is a claim about every parameter value. -/
structure Params where
  /-- HALF_LOW, in µs. -/
  halfLow : Nat
  /-- HALF_HIGH, in µs. -/
  halfHigh : Nat
  /-- T_BUF, in µs. -/
  tBuf : Nat
  /-- ACK_LEVEL (R162; OPEN, 90_conflicts.md C1). -/
  ackLevel : Level
  /-- SEND_BIT_RELEASE (R160). -/
  sendBitRelease : Bool
  /-- DEV_ADDR7 (OPEN). -/
  devAddr7 : BitVec 7
  /-- INIT_START (OPEN). -/
  initStart : Byte
  /-- INIT_VALUES, any length (OPEN). -/
  initValues : List Byte
  /-- TENS_WIDTH(3) to TENS_WIDTH(7), each 0 to 4 (OPEN, R205). -/
  tensWidthUpper : Vector (Fin 5) 5
  /-- PIN_CLOCK (OPEN, no effect on any rule). -/
  pinClock : Nat
  /-- PIN_DATA (OPEN, no effect on any rule). -/
  pinData : Nat
  /-- HOST_BASE (OPEN, R64, no effect on any rule). -/
  hostBase : Nat
deriving DecidableEq, Repr, Inhabited

/-- The parameter values of the built controller: no value is known to Lean (log 1). -/
opaque Config.build : Params

/-- FREE VALUE: the level the environment puts on a released line at the n-th draw, where the environment's listed
levels are used up (R27 `draw_env`; log 2). -/
opaque Config.freeDraw : Nat → Line → Level

end Sys2Proof
end

