-- ==== Sys2Proof/Machine/State.lean ====
section
/-! DEFINITION. The state of the controller (10_state.md), the host accesses it serves, and how a step can stop. -/

namespace Sys2Proof.Machine

/-- The bus-engine state (R28). -/
inductive BusState where
  | idle
  | addressed
deriving DecidableEq, Repr

/-- The drive a line gets from the controller (R11, R23). -/
inductive Drive where
  | low
  | high
  | released
deriving DecidableEq, Repr

/-- The bus events of TRACE (R32). -/
inductive Event where
  /-- `Drive(t, L, d)`: at time t, line L got drive d. -/
  | drive (t : Nat) (l : Line) (d : Drive)
  /-- `Sample(t, L, v)`: at time t, the controller read level v from line L. -/
  | sample (t : Nat) (l : Line) (v : Level)
deriving DecidableEq, Repr

/-- The causes of a controller fault (R231). A controller fault is a state change (R232), not a stop of the model. -/
inductive FaultCode where
  | illegalCmd
  | levelWhileInput
  | dirChangeClockHigh
  | noTransaction
  | frameError
  | spuriousCondition
  | rawInTransaction
  | transactionOpen
deriving DecidableEq, Repr

/-- What the host can do between commands (R61, R245, R260). -/
inductive HostAccess where
  /-- `MemWrite(a, n, v)`; a register of 8 bits takes the low byte of `v` (no rule uses it: such a write has no effect). -/
  | write (a : RegIndex) (n : Nat) (v : CmdWord)
  /-- `MemRead(a, n)`. -/
  | read (a : RegIndex) (n : Nat)
  /-- The reset input asserted. -/
  | reset
deriving DecidableEq, Repr

/-- What a register read gave the host: the index read and the register, zero-extended to 16 bits (log 4). -/
structure Reply where
  index : RegIndex
  value : BitVec 16
deriving DecidableEq, Repr

/-- The state of the machine. The first group is the spec's (10_state.md R22 to R44); `params` is read-only
configuration (R45, log 1); the last group is the model's own (log 2, 3, 4). -/
structure State where
  /-- DIR[CLOCK] (R22). -/
  clockDir : Dir
  /-- LVL[CLOCK] (R22). -/
  clockLvl : Level
  /-- DIR[DATA] (R22). -/
  dataDir : Dir
  /-- LVL[DATA] (R22). -/
  dataLvl : Level
  /-- BUS (R28). -/
  bus : BusState
  /-- FRAME (R29). -/
  frame : Fin 9
  /-- NOW, in µs (R31). -/
  now : Nat
  /-- TRACE, oldest event first (R32). -/
  trace : List Event
  /-- CMD: the word of the command in progress, 0x0000 between commands (R34, R74; log 5). -/
  cmd : CmdWord
  /-- STATUS.NACK (R35, R36). -/
  nack : Bool
  /-- STATUS.FAIL (R35, R37). -/
  fail : Bool
  /-- STATUS.FAULT (R35, R232). -/
  fault : Bool
  /-- FAULTCODE (R38). -/
  faultCode : Byte
  /-- FAULTCMD (R38). -/
  faultCmd : CmdWord
  /-- RESULT0 (R43). -/
  result0 : Byte
  /-- RESULT1 (R43). -/
  result1 : Byte
  /-- RBUF[0] to RBUF[7] (R44). -/
  rbuf : Vector Byte 8
  /-- The implementation parameters (R8, R45; log 1). No step changes them. -/
  params : Params
  /-- The model's own: the levels the environment will put on released lines, next one first (R27; log 2). -/
  env : List Level
  /-- The model's own: how many draws have been made (log 2). -/
  draws : Nat
  /-- The model's own: the host accesses not yet served, next one first (log 3). -/
  pending : List HostAccess
  /-- The model's own: the values the host has read, oldest first (log 4). -/
  replies : List Reply
deriving DecidableEq, Repr

/-- The model has no fault outcome: what the spec calls a fault (R232) is a next state, and no command hangs (R237;
log 6). -/
inductive Fault where
deriving DecidableEq, Repr

/-- Why the model has no step. -/
inductive Refusal where
  /-- Raised by `exec` for an instruction that has no meaning yet (none is left). Safe. -/
  | notModelled (mnemonic : String)
  /-- Raised by `serveAccess` for a host access whose width in bytes is not the register's: R61 "the model refuses it
  (no step)". Safe: nothing is claimed of such an access (log 7). -/
  | hostAccessWidth (index : RegIndex) (bytes : Nat)
deriving DecidableEq, Repr

/-- The reset state of R48 for given parameters. -/
def State.resetWith (p : Params) : State where
  clockDir := .input
  clockLvl := .low
  dataDir := .input
  dataLvl := .low
  bus := .idle
  frame := 0
  now := 0
  trace := []
  cmd := 0x0000
  nack := false
  fail := false
  fault := false
  faultCode := 0x00
  faultCmd := 0x0000
  result0 := 0x00
  result1 := 0x00
  rbuf := Vector.replicate 8 0x00
  params := p
  env := []
  draws := 0
  pending := []
  replies := []

/-- The machine right after reset (R48), with the parameters it was built with (log 1), nothing known of the
environment (log 2) and nothing written by the host yet (log 3). -/
def State.reset : State := State.resetWith Config.build

end Sys2Proof.Machine
end

