-- ==== Sys2Proof/Machine/Operands.lean ====
section
/-! DEFINITION. What the operands and parameters of the commands stand for: the derived constants of R9, the
acknowledgement convention of R162, the tens widths of R205, and the widths of line values. -/

namespace Sys2Proof.Machine

/-- `T_LOW` (R9). -/
def tLow (p : Params) : Nat := 2 * p.halfLow

/-- `T_HIGH` (R9). -/
def tHigh (p : Params) : Nat := 2 * p.halfHigh

/-- `T_BIT` (R9). -/
def tBit (p : Params) : Nat := tLow p + tHigh p

/-- `not` on Levels (R10). -/
def flipLevel : Level → Level
  | .low => .high
  | .high => .low

/-- `NACK_LEVEL` (R9). -/
def nackLevel (p : Params) : Level := flipLevel p.ackLevel

/-- `DEV_W`: the device address with the write bit, 0 (R9). -/
def devW (p : Params) : Byte := BitVec.ofNat 8 (p.devAddr7.toNat * 2 + 0)

/-- `DEV_R`: the device address with the read bit, 1 (R9). -/
def devR (p : Params) : Byte := BitVec.ofNat 8 (p.devAddr7.toNat * 2 + 1)

/-- `ackLevel(a)` of R162. -/
def ackLevelOf (p : Params) : Ack → Level
  | .ack => p.ackLevel
  | .nack => nackLevel p

/-- `ackOf(v)` of R162. -/
def ackOf (p : Params) (v : Level) : Ack := if v = nackLevel p then .nack else .ack

/-- `TENS_WIDTH(r)` of R205: fixed for seconds, minutes and hours, a parameter for registers 3 to 7. A well-formed BCD
has no other register (log 13). -/
def tensWidth (p : Params) : Nat → Nat
  | 0 => 3
  | 1 => 3
  | 2 => 2
  | r + 3 => ((p.tensWidthUpper[r]?).getD 0).val

/-- `zext_8(bit(v))` (R10, R11). -/
def levelByte (v : Level) : Byte := BitVec.ofNat 8 v.toBit.toNat

/-- `level(i[7])` down to `level(i[0])`: the levels of a byte in the order the bus carries them (R65, R166). -/
def bitsMsbFirst (i : Byte) : List Level := [7, 6, 5, 4, 3, 2, 1, 0].map fun k => levelOfBit (i.getLsbD k)

/-- `((acc << 1) | bit(v)) & 0xFF` (R167): one received bit shifted in from the right. -/
def shiftIn (acc : Byte) (v : Level) : Byte := acc <<< 1 ||| levelByte v

/-- The tens digit of R204. -/
def tensDigit (w : Nat) (i : Byte) : Byte := (i >>> 4) &&& ((1#8 <<< w) - 1#8)

/-- The ones digit of R204. -/
def onesDigit (i : Byte) : Byte := i &&& 0x0F#8

end Sys2Proof.Machine
end

