-- ==== Sys2Proof/Machine/Flags.lean ====
section
/-! DEFINITION. The STATUS register (R35 to R37), the FRAME counter (R29), and the fault codes (R231). -/

namespace Sys2Proof.Machine

/-- STATUS as the host reads it (R35): bit 7 FAULT, bits 6:3 FRAME, bit 2 TXN, bit 1 FAIL, bit 0 NACK. -/
def State.status (s : State) : Byte :=
  BitVec.ofBool s.fault ++ BitVec.ofNat 4 s.frame.val ++ BitVec.ofBool (s.bus == .addressed) ++ BitVec.ofBool s.fail
    ++ BitVec.ofBool s.nack

/-- The codes of R231. -/
def FaultCode.code : FaultCode → Byte
  | .illegalCmd => 1
  | .levelWhileInput => 2
  | .dirChangeClockHigh => 3
  | .noTransaction => 4
  | .frameError => 5
  | .spuriousCondition => 6
  | .rawInTransaction => 7
  | .transactionOpen => 8

/-- `FRAME <- (FRAME + 1) mod 9` (R29); addition in `Fin 9` is addition mod 9. -/
def State.advanceFrame (s : State) : State := { s with frame := s.frame + 1 }

/-- The value STATUS.NACK and STATUS.FAIL take for an acknowledgement: 1 for NACK (R169, R170). -/
def ackFlag (a : Ack) : Bool := a = .nack

end Sys2Proof.Machine
end

