-- ==== Sys2Proof/Machine/Ops.lean ====
section
/-! DEFINITION. The named operations over the state: the registers of the two lines, the free draw, the four Signal
Driver primitives (R110 to R113), taking a fault (R232), and reset (R260). -/

namespace Sys2Proof.Machine

/-! ## The line registers (R22 to R26) -/

/-- `DIR[L]`. -/
def State.dir (s : State) : Line → Dir
  | .clock => s.clockDir
  | .data => s.dataDir

/-- `LVL[L]`. -/
def State.lvl (s : State) : Line → Level
  | .clock => s.clockLvl
  | .data => s.dataLvl

/-- `DIR[L] <- d`. `LVL[L]` keeps its value (R24). -/
def State.setDir (s : State) : Line → Dir → State
  | .clock, d => { s with clockDir := d }
  | .data, d => { s with dataDir := d }

/-- `LVL[L] <- v`. -/
def State.setLvl (s : State) : Line → Level → State
  | .clock, v => { s with clockLvl := v }
  | .data, v => { s with dataLvl := v }

/-- The drive of a line whose registers hold `d` and `v` (R23). -/
def driveOf : Dir → Level → Drive
  | .input, _ => .released
  | .output, .high => .high
  | .output, .low => .low

/-- `drive(L)` (R23). -/
def State.drive (s : State) (l : Line) : Drive := driveOf (s.dir l) (s.lvl l)

/-- `clockHeldLow` (R15). -/
abbrev State.clockHeldLow (s : State) : Prop := s.clockDir = .output ∧ s.clockLvl = .low

/-! ## The other updates -/

/-- `emit(e)` (R12). -/
def State.emit (s : State) (e : Event) : State := { s with trace := s.trace ++ [e] }

/-- `emit Drive(NOW, L, drive(L))` (R32, R110, R111). -/
def State.emitDrive (s : State) (l : Line) : State := s.emit (.drive s.now l (s.drive l))

/-- `NOW <- NOW + n` (R113). -/
def State.wait (s : State) (n : Nat) : State := { s with now := s.now + n }

/-- `BUS <- b` (R28). -/
def State.setBus (s : State) (b : BusState) : State := { s with bus := b }

/-- `FRAME <- 0` (R142). -/
def State.clearFrame (s : State) : State := { s with frame := 0 }

/-- `STATUS.NACK <- b` (R36). -/
def State.setNack (s : State) (b : Bool) : State := { s with nack := b }

/-- `STATUS.FAIL <- b` (R37). -/
def State.setFail (s : State) (b : Bool) : State := { s with fail := b }

/-- `RESULT0 <- v` (R43). -/
def State.setResult0 (s : State) (v : Byte) : State := { s with result0 := v }

/-- `RESULT1 <- v` (R43). -/
def State.setResult1 (s : State) (v : Byte) : State := { s with result1 := v }

/-- `RBUF[k] <- bytes[0]`, `RBUF[k+1] <- bytes[1]`, … (R44, R203). -/
def fillFrom (k : Nat) (bytes : List Byte) (buf : Vector Byte 8) : Vector Byte 8 :=
  match bytes with
  | [] => buf
  | b :: rest => fillFrom (k + 1) rest (buf.setIfInBounds k b)

/-- RBUF receives a block from entry 0 on (R203). -/
def State.storeBlock (s : State) (bytes : List Byte) : State := { s with rbuf := fillFrom 0 bytes s.rbuf }

/-- The word of the command in progress (log 5). -/
def State.setCmd (s : State) (w : CmdWord) : State := { s with cmd := w }

/-! ## The free draw (R27) -/

/-- The level `draw_env(L)` gives at the `k`-th draw from here: the environment's listed level, and past the end of the
list a free value of its own for each draw. -/
def State.drawAt (s : State) (k : Nat) (l : Line) : Level := (s.env[k]?).getD (Config.freeDraw (s.draws + k) l)

/-- The state after `n` draws. -/
def State.afterDraws (s : State) (n : Nat) : State := { s with env := s.env.drop n, draws := s.draws + n }

/-! ## Command sequences -/

/-- A sequence inside one command: it ends normally with a value, or `raise` ends it at once with a fault code, in the
state it had reached (R12, R232). -/
abbrev Cmd (α : Type) : Type := EStateM FaultCode State α

/-- `if c: raise Fault(code)`. -/
def raiseIf (c : State → Prop) [DecidablePred c] (code : FaultCode) : Cmd Unit := fun s =>
  if c s then .error code s else .ok () s

/-- A statement that only updates the state. -/
def update (f : State → State) : Cmd Unit := fun s => .ok () (f s)

/-- A value read from the parameters (R8). -/
def param {α : Type} (f : Params → α) : Cmd α := fun s => .ok (f s.params) s

/-! ## The Signal Driver primitives -/

/-- `drv_setdir(L, d)` (R110). -/
def drvSetDir (l : Line) (d : Dir) : Cmd Unit := fun s =>
  if l = .data ∧ d ≠ s.dataDir ∧ ¬ s.clockHeldLow then .error .dirChangeClockHigh s
  else .ok () ((s.setDir l d).emitDrive l)

/-- `drv_setlvl(L, v)` (R111). -/
def drvSetLvl (l : Line) (v : Level) : Cmd Unit := fun s =>
  if s.dir l ≠ .output then .error .levelWhileInput s
  else .ok () ((s.setLvl l v).emitDrive l)

/-- `obs(L)` (R25): a driven line reads as its level (R26), a released line as a draw (R27). -/
def observe (l : Line) : Cmd Level := fun s =>
  if s.dir l = .output then .ok (s.lvl l) s else .ok (s.drawAt 0 l) (s.afterDraws 1)

/-- `drv_read(L)` (R112). -/
def drvRead (l : Line) : Cmd Level := do
  let v ← observe l
  update fun s => s.emit (.sample s.now l v)
  pure v

/-- `drv_delay(n)` (R113). -/
def drvDelay (n : Nat) : Cmd Unit := update fun s => s.wait n

/-! ## Taking a fault, and reset -/

/-- `raise Fault(code)` inside the command whose word is in CMD (R232): STATUS.FAULT, FAULTCODE and FAULTCMD, and
nothing else. There is no handler and no return (R235). -/
def State.takeFault (s : State) (c : FaultCode) : State :=
  { s with fault := true, faultCode := c.code, faultCmd := s.cmd }

/-- A command run from its first statement to its end: a raised fault is taken as R232 says. -/
def runCommand (m : Cmd Unit) (s : State) : Host.Outcome State Fault Refusal :=
  match m s with
  | .ok _ t => .next t
  | .error c t => .next (t.takeFault c)

/-- The reset input (R260, R261): every piece of the controller's state takes its value of R48. It is the only way out
of a fault (R235). The parameters, the environment, the host's queue and what the host has read are not the
controller's and stay (log 12). -/
def State.applyReset (s : State) : State :=
  { State.resetWith s.params with env := s.env, draws := s.draws, pending := s.pending, replies := s.replies }

end Sys2Proof.Machine
end

