-- ==== Sys2Proof/Machine/Conditions.lean ====
section
/-! DEFINITION. The START/STOP generator and the bus state machine (42_conditions.md): START, STOP. -/

namespace Sys2Proof.Machine

/-- `cond_start()` (R140). -/
def condStart : Cmd Unit := do
  drvSetLvl .clock .low
  drvSetDir .data .output
  drvDelay (← param Params.halfLow)
  drvSetLvl .data .high
  drvDelay (← param Params.halfLow)
  drvSetLvl .clock .high
  drvDelay (← param Params.halfHigh)
  drvSetLvl .data .low
  drvDelay (← param Params.halfHigh)

/-- `cond_stop()` (R141). -/
def condStop : Cmd Unit := do
  drvSetLvl .clock .low
  drvSetDir .data .output
  drvDelay (← param Params.halfLow)
  drvSetLvl .data .low
  drvDelay (← param Params.halfLow)
  drvSetLvl .clock .high
  drvDelay (← param Params.halfHigh)
  drvSetLvl .data .high
  drvDelay (← param Params.halfHigh)
  drvDelay (← param Params.tBuf)

/-- `if FRAME != 0: raise Fault(FRAME_ERROR)` (R142, R143). -/
def midByteCheck : Cmd Unit := raiseIf (fun s => s.frame ≠ 0) .frameError

/-- `if BUS = IDLE: raise Fault(NO_TRANSACTION)` (R143, R163). -/
def openCheck : Cmd Unit := raiseIf (fun s => s.bus = .idle) .noTransaction

/-- START (R142). -/
def execStart (s : State) : Host.Outcome State Fault Refusal :=
  runCommand (do
    midByteCheck
    condStart
    update fun s => s.setBus .addressed
    update State.clearFrame) s

/-- STOP (R143). -/
def execStop (s : State) : Host.Outcome State Fault Refusal :=
  runCommand (do
    openCheck
    midByteCheck
    condStop
    update fun s => s.setBus .idle) s

end Sys2Proof.Machine
end

