-- ==== Sys2Proof/Machine/Framer.lean ====
section
/-! DEFINITION. The bit and byte framer with its acknowledgement handling (43_framer.md): SENDBIT, RECVBIT, SENDBYTE,
RECVBYTE, SENDACK, RECVACK, SEND, RECV. -/

namespace Sys2Proof.Machine

/-! ## Internal operations -/

/-- The end of `bit_send` in the variant SEND_BIT_RELEASE (R160). -/
def releaseAfterBit : Cmd Unit := do
  if ← param Params.sendBitRelease then
    drvSetLvl .clock .low
    drvSetDir .data .input
  else
    pure ()

/-- `bit_send(v)` (R160). -/
def bitSend (v : Level) : Cmd Unit := do
  drvSetLvl .clock .low
  drvSetDir .data .output
  drvDelay (← param Params.halfLow)
  drvSetLvl .data v
  drvDelay (← param Params.halfLow)
  drvSetLvl .clock .high
  drvDelay (← param tHigh)
  releaseAfterBit
  update State.advanceFrame

/-- `bit_recv()` (R161). -/
def bitRecv : Cmd Level := do
  drvSetLvl .clock .low
  drvSetDir .data .input
  drvDelay (← param tLow)
  drvSetLvl .clock .high
  drvDelay (← param Params.halfHigh)
  let v ← drvRead .data
  drvDelay (← param Params.halfHigh)
  update State.advanceFrame
  pure v

/-- `bit_send` of each level of a list, in its order. -/
def sendLevels : List Level → Cmd Unit
  | [] => pure ()
  | v :: rest => do
    bitSend v
    sendLevels rest

/-- `byte_send(i)` (R166): bit 7 down to bit 0. -/
def byteSend (i : Byte) : Cmd Unit := sendLevels (bitsMsbFirst i)

/-- `n` bits received into an accumulator, the first one ending highest (the loop of R167). -/
def recvBits : Nat → Byte → Cmd Byte
  | 0, acc => pure acc
  | n + 1, acc => do
    let v ← bitRecv
    recvBits n (shiftIn acc v)

/-- `byte_recv()` (R167). -/
def byteRecv : Cmd Byte := recvBits 8 0

/-- A received acknowledgement level as ACK or NACK (R162). -/
def recvAck : Cmd Ack := do
  let v ← bitRecv
  param fun p => ackOf p v

/-- `xfer_send(i)` (R170). -/
def xferSend (i : Byte) : Cmd Ack := do
  byteSend i
  let a ← recvAck
  update fun s => s.setNack (ackFlag a)
  update fun s => s.setFail (ackFlag a)
  pure a

/-- `xfer_recv(ack)` (R171). -/
def xferRecv (a : Ack) : Cmd Byte := do
  let b ← byteRecv
  bitSend (← param fun p => ackLevelOf p a)
  pure b

/-! ## The checks shared by the family (R163) -/

/-- `kind` of R163. -/
inductive SlotKind where
  /-- SENDBIT, RECVBIT. -/
  | bit
  /-- SENDBYTE, RECVBYTE, SEND, RECV. -/
  | byte
  /-- SENDACK, RECVACK. -/
  | ack
deriving DecidableEq, Repr

/-- `framer_check(kind)` (R163). -/
def framerCheck (kind : SlotKind) : Cmd Unit := do
  openCheck
  raiseIf (fun s => (kind = .byte ∧ s.frame ≠ 0) ∨ (kind = .ack ∧ s.frame ≠ 8)) .frameError

/-! ## The commands -/

/-- SENDBIT (R164). -/
def execSendbit (b : Bool) (s : State) : Host.Outcome State Fault Refusal :=
  runCommand (do
    framerCheck .bit
    bitSend (levelOfBit b)) s

/-- RECVBIT (R165). -/
def execRecvbit (s : State) : Host.Outcome State Fault Refusal :=
  runCommand (do
    framerCheck .bit
    let v ← bitRecv
    update fun s => s.setResult0 (levelByte v)) s

/-- SENDBYTE (R166). -/
def execSendbyte (i : Byte) (s : State) : Host.Outcome State Fault Refusal :=
  runCommand (do
    framerCheck .byte
    byteSend i) s

/-- RECVBYTE (R167). -/
def execRecvbyte (s : State) : Host.Outcome State Fault Refusal :=
  runCommand (do
    framerCheck .byte
    let b ← byteRecv
    update fun s => s.setResult0 b) s

/-- SENDACK (R168). -/
def execSendack (a : Ack) (s : State) : Host.Outcome State Fault Refusal :=
  runCommand (do
    framerCheck .ack
    bitSend (← param fun p => ackLevelOf p a)) s

/-- RECVACK (R169). -/
def execRecvack (s : State) : Host.Outcome State Fault Refusal :=
  runCommand (do
    framerCheck .ack
    let v ← bitRecv
    update fun s => s.setResult0 (levelByte v)
    update fun s => s.setNack (ackFlag (ackOf s.params v))) s

/-- SEND (R170). -/
def execSend (i : Byte) (s : State) : Host.Outcome State Fault Refusal :=
  runCommand (do
    framerCheck .byte
    let _ ← xferSend i
    pure ()) s

/-- RECV (R171). -/
def execRecv (a : Ack) (s : State) : Host.Outcome State Fault Refusal :=
  runCommand (do
    framerCheck .byte
    let b ← xferRecv a
    update fun s => s.setResult0 b) s

end Sys2Proof.Machine
end

