-- ==== Sys2Proof/Machine/Sequencer.lean ====
section
/-! DEFINITION. The Peripheral Protocol sequencer and the decimal-digit split (44_sequencer.md): INITP, READBLK, BCD. -/

namespace Sys2Proof.Machine

/-- `seq_check()` (R200). -/
def seqCheck : Cmd Unit := raiseIf (fun s => s.bus = .addressed) .transactionOpen

/-- Bytes sent in list order up to the first one that is not acknowledged (R201, R202). STATUS.NACK and STATUS.FAIL
stay as the last `xfer_send` left them. -/
def sendUntilNack : List Byte → Cmd Unit
  | [] => pure ()
  | x :: rest => do
    match ← xferSend x with
    | .nack => pure ()
    | .ack => sendUntilNack rest

/-- `n` bytes received, each but the last answered with ACK and the last with NACK (the loop of R203). -/
def recvBlock : Nat → Cmd (List Byte)
  | 0 => pure []
  | n + 1 => do
    let b ← xferRecv (if n = 0 then .nack else .ack)
    let rest ← recvBlock n
    pure (b :: rest)

/-- READBLK between its START and its STOP (R203): the bytes read, or none where it goes to `fail`. -/
def readBytes (i : Byte) (count : Nat) : Cmd (Option (List Byte)) := do
  match ← xferSend (← param devW) with
  | .nack => pure none
  | .ack =>
    match ← xferSend i with
    | .nack => pure none
    | .ack =>
      condStart
      match ← xferSend (← param devR) with
      | .nack => pure none
      | .ack =>
        let bytes ← recvBlock count
        pure (some bytes)

/-- The bytes of a READBLK that succeeded; RBUF keeps its contents on failure (R203). -/
def storeRead : Option (List Byte) → State → State
  | none, s => s
  | some bytes, s => s.storeBlock bytes

/-- INITP (R202). Both ways out of its loop end with the same two statements. -/
def execInitp (s : State) : Host.Outcome State Fault Refusal :=
  runCommand (do
    seqCheck
    condStart
    update fun s => s.setBus .addressed
    sendUntilNack (← param fun p => [devW p, p.initStart] ++ p.initValues)
    condStop
    update fun s => s.setBus .idle) s

/-- READBLK (R203). Success and failure both run `cond_stop` and end IDLE; only success then stores the block. -/
def execReadblk (i : Byte) (count : Nat) (s : State) : Host.Outcome State Fault Refusal :=
  runCommand (do
    seqCheck
    condStart
    update fun s => s.setBus .addressed
    let got ← readBytes i count
    condStop
    update fun s => s.setBus .idle
    update (storeRead got)) s

/-- BCD (R204). -/
def execBcd (r : Nat) (i : Byte) (s : State) : Host.Outcome State Fault Refusal :=
  runCommand (do
    let w ← param fun p => tensWidth p r
    update fun s => s.setResult0 (tensDigit w i)
    update fun s => s.setResult1 (onesDigit i)) s

end Sys2Proof.Machine
end

