-- ==== Sys2Proof/Machine/SignalDriver.lean ====
section
/-! DEFINITION. The Signal Driver commands: SETDIR, SETLVL, READLVL, DELAY
(41_signal_driver.md). -/

namespace Sys2Proof.Machine

/-- `if BUS = ADDRESSED: raise Fault(RAW_IN_TRANSACTION)` (R115, R116). -/
def rawCheck : Cmd Unit := raiseIf (fun s => s.bus = .addressed) .rawInTransaction

/-- The SPURIOUS_CONDITION check of R116: a change of a driven DATA while CLOCK is not held LOW. -/
def spuriousCheck (l : Line) (v : Level) : Cmd Unit :=
  raiseIf (fun s => l = .data ∧ s.dataDir = .output ∧ v ≠ s.dataLvl ∧ ¬ s.clockHeldLow) .spuriousCondition

/-- SETDIR (R115). -/
def execSetdir (l : Line) (v : Dir) (s : State) : Host.Outcome State Fault Refusal :=
  runCommand (do
    rawCheck
    drvSetDir l v) s

/-- SETLVL (R116). -/
def execSetlvl (l : Line) (v : Level) (s : State) : Host.Outcome State Fault Refusal :=
  runCommand (do
    rawCheck
    spuriousCheck l v
    drvSetLvl l v) s

/-- READLVL (R117). -/
def execReadlvl (l : Line) (s : State) : Host.Outcome State Fault Refusal :=
  runCommand (do
    let v ← drvRead l
    update fun s => s.setResult0 (levelByte v)) s

/-- DELAY (R118). -/
def execDelay (n : Nat) (s : State) : Host.Outcome State Fault Refusal :=
  runCommand (drvDelay n) s

end Sys2Proof.Machine
end

