-- ==== Sys2Proof/Machine/Dispatch.lean ====
section
/-! DEFINITION. Each command to its meaning (30_encoding.md R85). -/

namespace Sys2Proof.Machine

def exec (i : Instr) (s : State) : Host.Outcome State Fault Refusal :=
  match i with
  | .bcd r b => Sys2Proof.Machine.execBcd r b s
  | .setdir l v => Sys2Proof.Machine.execSetdir l v s
  | .setlvl l v => Sys2Proof.Machine.execSetlvl l v s
  | .readlvl l => Sys2Proof.Machine.execReadlvl l s
  | .delay n => Sys2Proof.Machine.execDelay n s
  | .start => Sys2Proof.Machine.execStart s
  | .stop => Sys2Proof.Machine.execStop s
  | .sendbit b => Sys2Proof.Machine.execSendbit b s
  | .recvbit => Sys2Proof.Machine.execRecvbit s
  | .sendbyte b => Sys2Proof.Machine.execSendbyte b s
  | .recvbyte => Sys2Proof.Machine.execRecvbyte s
  | .sendack a => Sys2Proof.Machine.execSendack a s
  | .recvack => Sys2Proof.Machine.execRecvack s
  | .send b => Sys2Proof.Machine.execSend b s
  | .recv a => Sys2Proof.Machine.execRecv a s
  | .initp => Sys2Proof.Machine.execInitp s
  | .readblk b count => Sys2Proof.Machine.execReadblk b count s

end Sys2Proof.Machine
end

