-- ==== Sys2Proof/Machine/HostPort.lean ====
section
/-! DEFINITION. The host interface: the register map (R34, R60, R61), command entry (R230), and serving one host
access. -/

namespace Sys2Proof.Machine

/-- `width(a) / 8` (R61): the width of the register at an index, in bytes. -/
def regBytes (a : RegIndex) : Nat := if a = 0 ∨ a = 3 then 2 else 1

/-- The register at an index (R34), zero-extended to 16 bits: 0 for CMD and for reserved indices. -/
def State.regRead (s : State) (a : RegIndex) : BitVec 16 :=
  match a.toNat with
  | 1 => s.status.setWidth 16
  | 2 => s.faultCode.setWidth 16
  | 3 => s.faultCmd
  | 4 => s.result0.setWidth 16
  | 5 => s.result1.setWidth 16
  | 8 => s.rbuf[0].setWidth 16
  | 9 => s.rbuf[1].setWidth 16
  | 10 => s.rbuf[2].setWidth 16
  | 11 => s.rbuf[3].setWidth 16
  | 12 => s.rbuf[4].setWidth 16
  | 13 => s.rbuf[5].setWidth 16
  | 14 => s.rbuf[6].setWidth 16
  | 15 => s.rbuf[7].setWidth 16
  | _ => 0x0000

/-- The end of a command: CMD keeps nothing (R34, R74; log 5). -/
def endCommand : Host.Outcome State Fault Refusal → Host.Outcome State Fault Refusal
  | .next t => .next (t.setCmd 0x0000)
  | .fault r => .fault r
  | .refused r => .refused r

/-- A command word written to a controller that has no fault: decode, then the command's rule (R230). -/
def runWord (w : CmdWord) (s : State) : Host.Outcome State Fault Refusal :=
  match decode w with
  | .error _ => .next (s.takeFault .illegalCmd)
  | .ok i => exec i s

/-- Command entry (R230): dropped after a fault (R235), else run to its end. -/
def commandEntry (w : CmdWord) (s : State) : Host.Outcome State Fault Refusal :=
  if s.fault then .next s else endCommand (runWord w (s.setCmd w))

/-- One host access (R61, R260). -/
def serveAccess (x : HostAccess) (s : State) : Host.Outcome State Fault Refusal :=
  match x with
  | .write a n v =>
    if n ≠ regBytes a then .refused (.hostAccessWidth a n)
    else if a = 0 then commandEntry v s
    else .next s
  | .read a n =>
    if n ≠ regBytes a then .refused (.hostAccessWidth a n)
    else .next { s with replies := s.replies ++ [{ index := a, value := s.regRead a }] }
  | .reset => .next s.applyReset

/-- The next host access, taken from the queue; with none the controller waits and nothing changes (R260, log 3). -/
def serveNext (s : State) : Host.Outcome State Fault Refusal :=
  match s.pending with
  | [] => .next s
  | x :: rest => serveAccess x { s with pending := rest }

/-- The state with a write of `w` to CMD as the host's next access. -/
def State.pushCommand (s : State) (w : CmdWord) : State := { s with pending := .write 0 2 w :: s.pending }

end Sys2Proof.Machine
end

