-- ==== Sys2Proof/Machine/Step.lean ====
section
/-! DEFINITION. One step of the machine: one host access served (log 3). -/

namespace Sys2Proof.Machine

/-- One step. -/
def step (s : State) : Host.Outcome State Fault Refusal := serveNext s

/-- The state with the command whose bits are the low `nbits` of `w` as the host's next write to CMD, which is where the
controller takes its next command from (R20, R34; log 3). -/
def State.withFetchWord (s : State) (nbits w : Nat) : State := s.pushCommand (BitVec.ofNat 16 (w % 2 ^ nbits))

end Sys2Proof.Machine
end

