-- ==== Sys2Proof/Machine/Assembler.lean ====
section
/-! DEFINITION. The assembler syntax of R88 and the pseudo-instructions of R89: one line of text to the commands it
stands for, and to their words. -/

namespace Sys2Proof.Machine

/-- White space between a mnemonic and its operands (log 16). -/
def isBlank (c : Char) : Bool := c = ' ' || c = '\t'

/-- A text without the white space around it. -/
def trimBlanks (l : List Char) : List Char := ((l.dropWhile isBlank).reverse.dropWhile isBlank).reverse

/-- The pieces of a text between its commas. -/
def splitCommas : List Char → List (List Char)
  | [] => [[]]
  | c :: rest =>
    if c = ',' then [] :: splitCommas rest
    else
      match splitCommas rest with
      | [] => [[c]]
      | piece :: more => (c :: piece) :: more

/-- The value of a digit in a base up to 16. -/
def digitValue (base : Nat) (c : Char) : Option Nat :=
  let v := if '0' ≤ c ∧ c ≤ '9' then c.toNat - '0'.toNat
    else if 'a' ≤ c ∧ c ≤ 'f' then c.toNat - 'a'.toNat + 10
    else if 'A' ≤ c ∧ c ≤ 'F' then c.toNat - 'A'.toNat + 10
    else base
  if v < base then some v else none

/-- A digit string read after the value `acc`. -/
def readDigits (base acc : Nat) : List Char → Option Nat
  | [] => some acc
  | c :: rest => (digitValue base c).bind fun d => readDigits base (acc * base + d) rest

/-- A number in decimal or with `0x` (R88). -/
def readNumber : List Char → Option Nat
  | [] => none
  | ['0', 'x'] => none
  | '0' :: 'x' :: digits => readDigits 16 0 digits
  | digits => readDigits 10 0 digits

/-- The operand spellings of R88. -/
def readLine (l : List Char) : Option Line :=
  if l = "clk".toList then some .clock else if l = "dat".toList then some .data else none

/-- `in` or `out` (R88). -/
def readDir (l : List Char) : Option Dir :=
  if l = "in".toList then some .input else if l = "out".toList then some .output else none

/-- `low` or `high` (R88). -/
def readLevel (l : List Char) : Option Level :=
  if l = "low".toList then some .low else if l = "high".toList then some .high else none

/-- `ack` or `nack` (R88). -/
def readAck (l : List Char) : Option Ack :=
  if l = "ack".toList then some .ack else if l = "nack".toList then some .nack else none

/-- A bit operand, 0 or 1 (R83). -/
def readBit (l : List Char) : Option Bool :=
  (readNumber l).bind fun n => if n = 0 then some false else if n = 1 then some true else none

/-- A byte operand, 0 to 255 (R83). -/
def readByte (l : List Char) : Option Byte :=
  (readNumber l).bind fun n => if n ≤ 255 then some (BitVec.ofNat 8 n) else none

/-- The commands of a mnemonic with its operands, in the order of R88 and R89; none for a text that is neither. -/
def readCommand (mnemonic : String) (operands : List (List Char)) : Option (List Instr) :=
  match mnemonic, operands with
  | "", [] => some []
  | "setdir", [l, d] => (readLine l).bind fun l => (readDir d).map fun d => [.setdir l d]
  | "setlvl", [l, v] => (readLine l).bind fun l => (readLevel v).map fun v => [.setlvl l v]
  | "readlvl", [l] => (readLine l).map fun l => [.readlvl l]
  | "delay", [n] => (readNumber n).map fun n => [.delay n]
  | "start", [] => some [.start]
  | "stop", [] => some [.stop]
  | "sendbit", [b] => (readBit b).map fun b => [.sendbit b]
  | "recvbit", [] => some [.recvbit]
  | "sendbyte", [i] => (readByte i).map fun i => [.sendbyte i]
  | "recvbyte", [] => some [.recvbyte]
  | "sendack", [a] => (readAck a).map fun a => [.sendack a]
  | "recvack", [] => some [.recvack]
  | "send", [i] => (readByte i).map fun i => [.send i]
  | "recv", [a] => (readAck a).map fun a => [.recv a]
  | "initp", [] => some [.initp]
  | "readblk", [i, k] => (readByte i).bind fun i => (readNumber k).map fun k => [.readblk i k]
  | "bcd", [r, i] => (readNumber r).bind fun r => (readByte i).map fun i => [.bcd r i]
  | "nop", [] => some (Pseudo.expand .nop)
  | "rstart", [] => some (Pseudo.expand .rstart)
  | "businit", [] => some (Pseudo.expand .businit)
  | _, _ => none

/-- One line of assembler text, its comment from `;` on left out (R88). -/
def parseLine (text : String) : Option (List Instr) :=
  let line := trimBlanks (text.toList.takeWhile fun c => c ≠ ';')
  let rest := trimBlanks (line.dropWhile fun c => !isBlank c)
  readCommand (String.ofList (line.takeWhile fun c => !isBlank c))
    (if rest = [] then [] else (splitCommas rest).map trimBlanks)

/-- The words of one line of assembler text: an operand out of range is an error and gives no word (R88). -/
def assembleLine (text : String) : Option (List CmdWord) := (parseLine text).bind fun is => is.mapM assemble

end Sys2Proof.Machine
end

