-- ==== Sys2Proof/Machine/Trace.lean ====
section
/-! DEFINITION. How a bus observer reads TRACE: the drives in force, and the START and STOP conditions (R33). -/

namespace Sys2Proof.Machine

/-- The kinds of bus condition (R14). -/
inductive Condition where
  | start
  | stop
deriving DecidableEq, Repr

/-- The time an event happened. -/
def Event.time : Event → Nat
  | .drive t _ _ => t
  | .sample t _ _ => t

/-- The drive of line `l` in force after a list of events that began with `d` in force (`cd(k)`, `dd(k)` of R33). -/
def driveAfter (l : Line) (d : Drive) : List Event → Drive
  | [] => d
  | .drive _ m e :: rest => driveAfter l (if m = l then e else d) rest
  | .sample _ _ _ :: rest => driveAfter l d rest

/-- What one event is, with `cd` and `dd` the drives of CLOCK and DATA in force before it (R33): a DATA event leaves the
drive of CLOCK as it is. -/
def conditionOf (cd dd : Drive) : Event → Option Condition
  | .drive _ .data .low => if dd = .high ∧ cd = .high then some .start else none
  | .drive _ .data .high => if dd = .low ∧ cd = .high then some .stop else none
  | .drive _ .data .released => none
  | .drive _ .clock _ => none
  | .sample _ _ _ => none

/-- The conditions of a list of events with their times, oldest first, the drives in force before it being `cd` and
`dd`. -/
def conditionsFrom (cd dd : Drive) : List Event → List (Condition × Nat)
  | [] => []
  | e :: rest =>
    let later := conditionsFrom (driveAfter .clock cd [e]) (driveAfter .data dd [e]) rest
    match conditionOf cd dd e with
    | some c => (c, e.time) :: later
    | none => later

/-- The conditions of a trace: before its first event both lines are released (R33, R48). -/
def conditions (trace : List Event) : List (Condition × Nat) := conditionsFrom .released .released trace

end Sys2Proof.Machine
end

