-- ==== Sys2Proof/Safety.lean ====
section
/-! DEFINITION. What counts as a safe run, and the terms the claims use: success (R247), the invariants (R30, R35, R38,
R72, R145, R146), and the waveforms of the rules' event lists (R140, R141, R160, R161). -/

namespace Sys2Proof.Machine

/-! ## The end of a run -/

/-- A run that has ended in this state has ended successfully (R247). -/
def State.success (s : State) : Prop := s.fault = false ∧ s.bus = .idle

/-! ## Invariants -/

/-- R30: `BUS = IDLE` implies `FRAME = 0`, and `BUS = ADDRESSED` implies `DIR[CLOCK] = OUTPUT`. -/
structure State.BusInv (s : State) : Prop where
  idle_frame : s.bus = .idle → s.frame = 0
  open_clock : s.bus = .addressed → s.clockDir = .output

/-- R38: FAULTCODE and FAULTCMD are 0 before the first fault, and after it FAULTCODE is a code of R231; between
commands CMD is 0x0000 (R34; log 5). -/
structure State.RecordInv (s : State) : Prop where
  clear : s.fault = false → s.faultCode = 0 ∧ s.faultCmd = 0
  held : s.fault = true → ∃ c : FaultCode, s.faultCode = c.code
  idle_cmd : s.cmd = 0

/-- R72: the timestamps of TRACE never fall, and none lies after NOW. -/
structure State.TimeInv (s : State) : Prop where
  ordered : (s.trace.map Event.time).Pairwise (· ≤ ·)
  past : ∀ e ∈ s.trace, e.time ≤ s.now

/-- The drives in force at the end of TRACE (R33) are the drives of the lines (R23). -/
structure State.DriveInv (s : State) : Prop where
  clock : driveAfter .clock .released s.trace = s.drive .clock
  data : driveAfter .data .released s.trace = s.drive .data

/-- Conditions read as a nesting: a START opens a transaction or repeats, a STOP closes an open one (R14, R146). -/
def nestedFrom (isOpen : Bool) : List Condition → Bool
  | [] => true
  | .start :: rest => nestedFrom true rest
  | .stop :: rest => isOpen && nestedFrom false rest

/-- A transaction is open after these conditions. -/
def openAfter (isOpen : Bool) : List Condition → Bool
  | [] => isOpen
  | .start :: rest => openAfter true rest
  | .stop :: rest => openAfter false rest

/-- R146: the first condition is a START, between two STOPs there is a START, and BUS is ADDRESSED exactly while the
conditions in TRACE leave a transaction open. -/
structure State.NestInv (s : State) : Prop where
  nested : nestedFrom false ((conditions s.trace).map Prod.fst) = true
  bus_open : s.bus = .addressed ↔ openAfter false ((conditions s.trace).map Prod.fst) = true

/-- No START lies nearer than `gap` after the STOP before it. -/
def gapsKept (gap : Nat) : List (Condition × Nat) → Prop
  | (.stop, ts) :: (.start, t) :: rest => ts + gap ≤ t ∧ gapsKept gap ((.start, t) :: rest)
  | _ :: rest => gapsKept gap rest
  | [] => True

/-- R145: every STOP condition is followed by the bus-free time before the next START condition, and a STOP condition
that is the last one lies at least `HALF_HIGH + T_BUF` back. -/
structure State.FreeTimeInv (s : State) : Prop where
  kept : gapsKept (tBit s.params + s.params.tBuf) (conditions s.trace)
  last : ∀ ts, (conditions s.trace).getLast? = some (.stop, ts) → ts + s.params.halfHigh + s.params.tBuf ≤ s.now

/-! ## Waveforms -/

/-- One stretch of a bus waveform: a condition, a slot in which the controller drives DATA, or a slot in which it
samples DATA. -/
inductive Slot where
  /-- `cond_start` (R140). -/
  | start
  /-- `cond_stop` (R141). -/
  | stop
  /-- `bit_send(v)` (R160). -/
  | driven (v : Level)
  /-- `bit_recv()` with the sample `v` (R161). -/
  | sampled (v : Level)
deriving DecidableEq, Repr

/-- How long a stretch takes (R140, R141, R160, R161). -/
def slotTime (p : Params) : Slot → Nat
  | .start => tBit p
  | .stop => tBit p + p.tBuf
  | .driven _ => tBit p
  | .sampled _ => tBit p

/-- LVL[DATA] after a stretch that began with `d` in it: a sampled slot keeps it (R24). -/
def slotLevel (d : Level) : Slot → Level
  | .start => .low
  | .stop => .high
  | .driven v => v
  | .sampled _ => d

/-- The drive of a driven line at a level: `drv(v)` of R160. -/
def drv (v : Level) : Drive := driveOf .output v

/-- The event lists of R140, R141, R160 and R161, from time `t` on, with `d` in LVL[DATA]. -/
def slotEvents (p : Params) (t : Nat) (d : Level) : Slot → List Event
  | .start =>
    [.drive t .clock .low, .drive t .data (drv d), .drive (t + p.halfLow) .data .high, .drive (t + tLow p) .clock .high,
      .drive (t + tLow p + p.halfHigh) .data .low]
  | .stop =>
    [.drive t .clock .low, .drive t .data (drv d), .drive (t + p.halfLow) .data .low, .drive (t + tLow p) .clock .high,
      .drive (t + tLow p + p.halfHigh) .data .high]
  | .driven v =>
    [.drive t .clock .low, .drive t .data (drv d), .drive (t + p.halfLow) .data (drv v),
      .drive (t + tLow p) .clock .high]
    ++ if p.sendBitRelease then
        [.drive (t + tLow p + tHigh p) .clock .low, .drive (t + tLow p + tHigh p) .data .released]
      else []
  | .sampled v =>
    [.drive t .clock .low, .drive t .data .released, .drive (t + tLow p) .clock .high,
      .sample (t + tLow p + p.halfHigh) .data v]

/-- The events of a row of stretches, one after the other with no gap (R13). -/
def waveform (p : Params) (t : Nat) (d : Level) : List Slot → List Event
  | [] => []
  | x :: rest => slotEvents p t d x ++ waveform p (t + slotTime p x) (slotLevel d x) rest

/-- CLOCK's level at the end of a driven slot (R160). -/
def endClock (p : Params) : Level := if p.sendBitRelease then .low else .high

/-- DATA's direction at the end of a driven slot (R160). -/
def endDir (p : Params) : Dir := if p.sendBitRelease then .input else .output

/-- The eight slots of a byte that is sent, bit 7 first (R65, R166). -/
def byteSlots (i : Byte) : List Slot :=
  [.driven (levelOfBit (i.getLsbD 7)), .driven (levelOfBit (i.getLsbD 6)), .driven (levelOfBit (i.getLsbD 5)),
    .driven (levelOfBit (i.getLsbD 4)), .driven (levelOfBit (i.getLsbD 3)), .driven (levelOfBit (i.getLsbD 2)),
    .driven (levelOfBit (i.getLsbD 1)), .driven (levelOfBit (i.getLsbD 0))]

/-- The next `n` draws of DATA from the `k`-th on, as sampled slots. -/
def State.drawnSlots (s : State) (k n : Nat) : List Slot :=
  (List.range n).map fun j => .sampled (s.drawAt (k + j) .data)

/-- The byte that eight draws of DATA make, the first one its bit 7 (R65, R167). -/
def State.drawnByte (s : State) (k : Nat) : Byte :=
  BitVec.ofNat 8 ((List.range 8).foldl (fun acc j => 2 * acc + (s.drawAt (k + j) .data).toBit.toNat) 0)

/-- The acknowledgement that the `k`-th draw of DATA is (R162). -/
def State.ackAt (s : State) (k : Nat) : Ack := ackOf s.params (s.drawAt k .data)

/-- The slots of bytes that are sent, each followed by its acknowledgement, the first of which is the `k`-th draw. -/
def State.sentSlots (s : State) (k : Nat) : List Byte → List Slot
  | [] => []
  | i :: rest => byteSlots i ++ .sampled (s.drawAt k .data) :: s.sentSlots (k + 1) rest

/-- The slots of `n` bytes that are received, the first sample being the `k`-th draw: ACK after each but the last, NACK
after the last (R203). -/
def State.readSlots (s : State) (k : Nat) : Nat → List Slot
  | 0 => []
  | n + 1 => s.drawnSlots k 8 ++ .driven (ackLevelOf s.params (if n = 0 then .nack else .ack)) :: s.readSlots (k + 8) n

end Sys2Proof.Machine
end

