-- ==== Sys2Proof/Certificates/Slice0/Obligations.lean ====
section
/-! DEFINITION. The statements for the provers. Each docstring names the rule of spec/ it formalises; "the lines", "the
record" and "the model's own fields" are the groups of fields of State. -/

open Sys2Proof Sys2Proof.Machine

/-! ## Encoding -/

/-- Every well-formed command is what its word decodes to (30_encoding.md, R83, R84, R87, R88). -/
def Obligations.DecodeOfEncodeIsTheCommand : Prop :=
  ∀ i : Instr, WellFormed i → decode (encode i) = .ok i

/-- A word that decodes gives a well-formed command whose word it is: no legal word has a bit that the command does
not hold (R81, R84, R86, R87). -/
def Obligations.EncodeOfDecodeIsTheWord : Prop :=
  ∀ (w : CmdWord) (i : Instr), decode w = .ok i → WellFormed i ∧ encode i = w

/-- At most one row of the opcode map selects any word (R84). -/
def Obligations.OpcodeRowsNeverOverlap : Prop :=
  ∀ w : CmdWord, (opcodeTable.filter fun row => row.selects w).length ≤ 1

/-- The illegal words are the ones R86 lists, with the words 0xF001 to 0xF0FF that R84's mask of INITP makes illegal
(log 8): OP 0 with bit 11 clear, OP 0xF with bit 11 clear and another bit of [10:0] set, OP 1 to 0xE with a bit set
that its format does not give to a field (R82). -/
def Obligations.IllegalWordsAreThoseListed : Prop :=
  ∀ w : CmdWord, (∃ k, decode w = .error k) ↔
    (w.extractLsb' 12 4 = 0x0#4 ∧ w.getLsbD 11 = false) ∨
    (w.extractLsb' 12 4 = 0xF#4 ∧ w.getLsbD 11 = false ∧ w.extractLsb' 0 11 ≠ 0#11) ∨
    ((w.extractLsb' 12 4 = 0x1#4 ∨ w.extractLsb' 12 4 = 0x2#4) ∧ w &&& 0x0CFF#16 ≠ 0#16) ∨
    ((w.extractLsb' 12 4 = 0x3#4 ∨ w.extractLsb' 12 4 = 0xE#4) ∧ w &&& 0x0EFF#16 ≠ 0#16) ∨
    ((w.extractLsb' 12 4 = 0x7#4 ∨ w.extractLsb' 12 4 = 0xB#4) ∧ w &&& 0x0FFE#16 ≠ 0#16) ∨
    ((w.extractLsb' 12 4 = 0x9#4 ∨ w.extractLsb' 12 4 = 0xD#4) ∧ w &&& 0x0F00#16 ≠ 0#16) ∨
    ((w.extractLsb' 12 4 = 0x5#4 ∨ w.extractLsb' 12 4 = 0x6#4 ∨ w.extractLsb' 12 4 = 0x8#4 ∨
      w.extractLsb' 12 4 = 0xA#4 ∨ w.extractLsb' 12 4 = 0xC#4) ∧ w &&& 0x0FFF#16 ≠ 0#16)

/-- Words written out in R90 and in 95_test_vectors.md 2.1 decode as they say. -/
def Obligations.WordsOfTheSpecDecode : Prop :=
  decode 0x1200 = .ok (.setdir .clock .output) ∧ decode 0x1100 = .ok (.setdir .data .input) ∧
  decode 0x2300 = .ok (.setlvl .data .high) ∧ decode 0x3100 = .ok (.readlvl .data) ∧
  decode 0x4005 = .ok (.delay 5) ∧ decode 0x7001 = .ok (.sendbit true) ∧
  decode 0x90D0 = .ok (.sendbyte 0xD0) ∧ decode 0xB001 = .ok (.sendack .nack) ∧
  decode 0xD000 = .ok (.send 0x00) ∧ decode 0xE100 = .ok (.recv .nack) ∧
  decode 0xFA00 = .ok (.readblk 0x00 3) ∧ decode 0xF807 = .ok (.readblk 0x07 1) ∧
  decode 0xFF00 = .ok (.readblk 0x00 8) ∧ decode 0x0859 = .ok (.bcd 0 0x59) ∧ decode 0x0A23 = .ok (.bcd 2 0x23)

/-! ## Parameters -/

/-- The derived constants (R9): T_LOW, T_HIGH and T_BIT from the half phases, NACK_LEVEL the other level than
ACK_LEVEL, DEV_W and DEV_R the device address with 0 and 1 below it. -/
def Obligations.DerivedConstantsAreAsDefined : Prop :=
  ∀ p : Params, tLow p = 2 * p.halfLow ∧ tHigh p = 2 * p.halfHigh ∧ tBit p = tLow p + tHigh p ∧
    nackLevel p = (if p.ackLevel = .low then .high else .low) ∧ (devW p).toNat = p.devAddr7.toNat * 2 ∧
    (devR p).toNat = p.devAddr7.toNat * 2 + 1

/-- The acknowledgement convention (R162): ACK is put on DATA as ACK_LEVEL and NACK as NACK_LEVEL, and a level is
read as NACK exactly if it is NACK_LEVEL; so what is put is what is read. -/
def Obligations.AcknowledgementsAreReadAsPut : Prop :=
  ∀ p : Params, ackLevelOf p .ack = p.ackLevel ∧ ackLevelOf p .nack = nackLevel p ∧
    (∀ v, ackOf p v = .nack ↔ v = nackLevel p) ∧ (∀ v, ackOf p v = .ack ↔ v = p.ackLevel) ∧
    ∀ a, ackOf p (ackLevelOf p a) = a

/-! ## Command entry and the host's accesses -/

/-- Command entry, the three cases of R230: a write to CMD after a fault is dropped; an illegal word raises
ILLEGAL_CMD (FAULTCODE 1, FAULTCMD the word) and changes nothing else; a legal word runs its command, with the word
in CMD, to the end. The write leaves the host's queue in each case (log 3), and CMD is 0x0000 between commands (log
5). -/
def Obligations.CommandEntryDropsFaultsOrRuns : Prop :=
  ∀ (s : State) (w : CmdWord) (rest : List HostAccess), s.pending = .write 0 2 w :: rest →
    (s.fault = true → step s = .next { s with pending := rest }) ∧
    (s.fault = false → (∃ k, decode w = .error k) →
      step s = .next { s with pending := rest, fault := true, faultCode := 1, faultCmd := w, cmd := 0x0000 }) ∧
    (s.fault = false → ∀ i, decode w = .ok i → ∀ t, exec i { s with pending := rest, cmd := w } = .next t →
      step s = .next { t with cmd := 0x0000 })

/-- A step runs the decoded command: when the host's next access writes to CMD a word that decodes to `i`, and no
fault is recorded, the step is `exec i`, with that access taken from the queue and the word in CMD before it, and
CMD cleared after it (R230; log 3, log 5). -/
def Obligations.StepRunsTheDecodedCommand : Prop :=
  ∀ (s : State) (w : CmdWord) (rest : List HostAccess) (i : Instr),
    s.pending = .write 0 2 w :: rest → s.fault = false → decode w = .ok i →
    ∃ t, exec i { s with pending := rest, cmd := w } = .next t ∧ step s = .next { t with cmd := 0x0000 }

/-- Host accesses (R61, R34): a read of the register's width answers the register of the map, zero-extended, 0 for
CMD and for reserved indices, and changes nothing of the controller; a write elsewhere than CMD has no effect; an
access of another width is refused. Only CMD and FAULTCMD are 2 bytes wide. The reply list and the queue are the
model's own (log 3, log 4). -/
def Obligations.HostAccessesFollowTheRegisterMap : Prop :=
  ∀ (s : State) (a : RegIndex) (n : Nat) (v : CmdWord) (rest : List HostAccess),
    (s.pending = .read a n :: rest → n = (if a = 0 ∨ a = 3 then 2 else 1) →
      step s = .next
        { s with
          pending := rest
          replies := s.replies ++
            [{ index := a
               value :=
                if a = 1 then s.status.setWidth 16 else if a = 2 then s.faultCode.setWidth 16
                else if a = 3 then s.faultCmd else if a = 4 then s.result0.setWidth 16
                else if a = 5 then s.result1.setWidth 16
                else if 8 ≤ a.toNat ∧ a.toNat ≤ 15 then ((s.rbuf[a.toNat - 8]?).getD 0).setWidth 16 else 0 }] }) ∧
    (s.pending = .write a n v :: rest → n = (if a = 0 ∨ a = 3 then 2 else 1) → a ≠ 0 →
      step s = .next { s with pending := rest }) ∧
    (s.pending = .read a n :: rest ∨ s.pending = .write a n v :: rest → n ≠ (if a = 0 ∨ a = 3 then 2 else 1) →
      step s = .refused (.hostAccessWidth a n))

/-- The fields of STATUS (R35): NACK in bit 0, FAIL in bit 1, TXN in bit 2, 1 exactly while BUS is ADDRESSED, FRAME
in bits 6:3, never above 8, and FAULT in bit 7. -/
def Obligations.StatusFieldsAreTheirMirrors : Prop :=
  ∀ s : State, s.status.getLsbD 0 = s.nack ∧ s.status.getLsbD 1 = s.fail ∧
    (s.status.getLsbD 2 = true ↔ s.bus = .addressed) ∧
    (s.status.extractLsb' 3 4).toNat = s.frame.val ∧ (s.status.extractLsb' 3 4).toNat ≤ 8 ∧
    s.status.getLsbD 7 = s.fault

/-- Reset (R48, R260): the machine's reset state and the state after the host asserts reset hold every value of the
table of R48. -/
def Obligations.ResetGivesEveryStateItsValue : Prop :=
  ∀ (s : State) (rest : List HostAccess), s.pending = .reset :: rest →
    ∃ t, step s = .next t ∧ ∀ r ∈ [t, State.reset],
      r.clockDir = .input ∧ r.dataDir = .input ∧ r.clockLvl = .low ∧ r.dataLvl = .low ∧ r.bus = .idle ∧
      r.frame = 0 ∧ r.now = 0 ∧ r.trace = [] ∧ r.cmd = 0x0000 ∧ r.status = 0x00 ∧ r.nack = false ∧ r.fail = false ∧
      r.fault = false ∧ r.faultCode = 0x00 ∧ r.faultCmd = 0x0000 ∧ r.result0 = 0x00 ∧ r.result1 = 0x00 ∧
      (∀ k : Fin 8, r.rbuf[k] = 0x00) ∧ r.drive .clock = .released ∧ r.drive .data = .released

/-- Reset leaves alone what is not the controller's (the model's choice, log 12): the parameters (R45), the
environment, the rest of the host's queue, and what the host has read. A controller with nothing to do waits (R260,
log 3). -/
def Obligations.ResetKeepsTheEnvironment : Prop :=
  (∀ (s : State) (rest : List HostAccess), s.pending = .reset :: rest →
    ∃ t, step s = .next t ∧ t.params = s.params ∧ t.env = s.env ∧ t.draws = s.draws ∧ t.pending = rest ∧
      t.replies = s.replies) ∧
  ∀ s : State, s.pending = [] → step s = .next s

/-! ## Signal Driver commands (41_signal_driver.md) -/

/-- SETDIR (R115, with R110 and R24). Its words decode to it. In IDLE, where DATA's direction stays as it is or
CLOCK is held LOW, the line takes the direction, keeps its level, and one Drive event is appended; nothing else
changes. In a transaction it faults with 7; a change of DATA's direction with CLOCK not held LOW faults with 3.
FAULTCMD takes the word that CMD holds while its command runs (the model's reading, log 5). -/
def Obligations.SetdirSetsOneDirection : Prop :=
  (∀ w : CmdWord, w &&& 0xFCFF = 0x1000 → decode w =
    .ok (.setdir (if w.getLsbD 8 then .data else .clock) (if w.getLsbD 9 then .output else .input))) ∧
  ∀ (l : Line) (d : Dir) (s : State),
    (s.bus = .idle → (l = .data → d ≠ s.dataDir → s.clockDir = .output ∧ s.clockLvl = .low) →
      exec (.setdir l d) s = .next
        (match l with
        | .clock => { s with clockDir := d, trace := s.trace ++ [.drive s.now .clock (driveOf d s.clockLvl)] }
        | .data => { s with dataDir := d, trace := s.trace ++ [.drive s.now .data (driveOf d s.dataLvl)] })) ∧
    (s.bus = .addressed →
      exec (.setdir l d) s = .next { s with fault := true, faultCode := 7, faultCmd := s.cmd }) ∧
    (s.bus = .idle → l = .data → d ≠ s.dataDir → ¬ (s.clockDir = .output ∧ s.clockLvl = .low) →
      exec (.setdir l d) s = .next { s with fault := true, faultCode := 3, faultCmd := s.cmd })

/-- SETLVL (R116, with R111 and R234). Its words decode to it. In IDLE, on a driven line, where DATA's level stays
as it is or CLOCK is held LOW, the line takes the level and one Drive event is appended; nothing else changes. In a
transaction it faults with 7; a change of a driven DATA with CLOCK not held LOW faults with 6; a released line
faults with 2. FAULTCMD takes the word that CMD holds while its command runs (the model's reading, log 5). -/
def Obligations.SetlvlSetsOneLevel : Prop :=
  (∀ w : CmdWord, w &&& 0xFCFF = 0x2000 → decode w =
    .ok (.setlvl (if w.getLsbD 8 then .data else .clock) (if w.getLsbD 9 then .high else .low))) ∧
  ∀ (l : Line) (v : Level) (s : State),
    (s.bus = .idle → l = .clock → s.clockDir = .output →
      exec (.setlvl l v) s = .next
        { s with clockLvl := v, trace := s.trace ++ [.drive s.now .clock (driveOf .output v)] }) ∧
    (s.bus = .idle → l = .data → s.dataDir = .output →
      (v ≠ s.dataLvl → s.clockDir = .output ∧ s.clockLvl = .low) →
      exec (.setlvl l v) s = .next
        { s with dataLvl := v, trace := s.trace ++ [.drive s.now .data (driveOf .output v)] }) ∧
    (s.bus = .addressed →
      exec (.setlvl l v) s = .next { s with fault := true, faultCode := 7, faultCmd := s.cmd }) ∧
    (s.bus = .idle → l = .data → s.dataDir = .output → v ≠ s.dataLvl →
      ¬ (s.clockDir = .output ∧ s.clockLvl = .low) →
      exec (.setlvl l v) s = .next { s with fault := true, faultCode := 6, faultCmd := s.cmd }) ∧
    (s.bus = .idle → s.dir l = .input →
      exec (.setlvl l v) s = .next { s with fault := true, faultCode := 2, faultCmd := s.cmd })

/-- READLVL (R117, with R112 and R25). Its words decode to it. RESULT0 is 1 for HIGH and 0 for LOW, and one Sample
event is appended, whatever BUS and FRAME are. A driven line answers LVL with no draw; a released line answers the
next draw and uses it up. A draw is the next entry of `env`, else a free value (the model's form of R27, log 2). -/
def Obligations.ReadlvlReportsTheObservedLevel : Prop :=
  (∀ w : CmdWord, w &&& 0xFEFF = 0x3000 → decode w = .ok (.readlvl (if w.getLsbD 8 then .data else .clock))) ∧
  ∀ (l : Line) (s : State),
    (s.dir l = .output →
      exec (.readlvl l) s = .next
        { s with
          result0 := (if s.lvl l = .high then 0x01 else 0x00)
          trace := s.trace ++ [.sample s.now l (s.lvl l)] }) ∧
    (s.dir l = .input →
      exec (.readlvl l) s = .next
        { s with
          result0 := (if s.drawAt 0 l = .high then 0x01 else 0x00)
          trace := s.trace ++ [.sample s.now l (s.drawAt 0 l)]
          env := s.env.drop 1
          draws := s.draws + 1 })

/-- DELAY (R118). Its words decode to it. NOW advances by n and nothing else changes, so `delay 0` changes nothing
(R89 `nop`). -/
def Obligations.DelayOnlyAdvancesNow : Prop :=
  (∀ w : CmdWord, w &&& 0xF000 = 0x4000 → decode w = .ok (.delay (w.toNat % 4096))) ∧
  (∀ (n : Nat) (s : State), exec (.delay n) s = .next { s with now := s.now + n }) ∧
  ∀ s : State, exec (.delay 0) s = .next s

/-- BCD (R204, R205). Its words decode to it. RESULT0 is the tens field of the register, RESULT1 the low nibble,
nothing else changes. The tens field has 3 bits for seconds and minutes, 2 for hours, TENS_WIDTH(r) for registers 3
to 7. -/
def Obligations.BcdSplitsTheDigits : Prop :=
  (∀ w : CmdWord, w &&& 0xF800 = 0x0800 → decode w =
    .ok (.bcd (w.toNat / 256 % 8) (BitVec.ofNat 8 (w.toNat % 256)))) ∧
  ∀ (r : Nat) (i : Byte) (s : State), r ≤ 7 →
    exec (.bcd r i) s = .next
      { s with
        result0 := BitVec.ofNat 8 (i.toNat / 16 %
          2 ^ (if r ≤ 1 then 3 else if r = 2 then 2 else ((s.params.tensWidthUpper[r - 3]?).getD 0).val))
        result1 := BitVec.ofNat 8 (i.toNat % 16) }

/-! ## START and STOP (42_conditions.md) -/

/-- START (R142, with R140). Its word decodes to it. At FRAME 0 with CLOCK driven, from IDLE or ADDRESSED, the
events of R140 in one clock period; both lines driven, CLOCK HIGH and DATA LOW; BUS ADDRESSED. A part-way frame
faults with 5 before a released CLOCK faults with 2. FAULTCMD takes the word that CMD holds while its command runs
(the model's reading, log 5). -/
def Obligations.StartOpensOrRepeats : Prop :=
  decode 0x5000 = .ok .start ∧ ∀ s : State,
    (s.frame = 0 → s.clockDir = .output →
      exec .start s = .next
        { s with
          clockLvl := .high
          dataDir := .output
          dataLvl := .low
          bus := .addressed
          now := s.now + 2 * s.params.halfLow + 2 * s.params.halfHigh
          trace := s.trace ++
            [.drive s.now .clock .low, .drive s.now .data (driveOf .output s.dataLvl),
              .drive (s.now + s.params.halfLow) .data .high, .drive (s.now + 2 * s.params.halfLow) .clock .high,
              .drive (s.now + 2 * s.params.halfLow + s.params.halfHigh) .data .low] }) ∧
    (s.frame ≠ 0 → exec .start s = .next { s with fault := true, faultCode := 5, faultCmd := s.cmd }) ∧
    (s.frame = 0 → s.clockDir = .input →
      exec .start s = .next { s with fault := true, faultCode := 2, faultCmd := s.cmd })

/-- STOP (R143, with R141). Its word decodes to it. In a transaction at FRAME 0 with CLOCK driven, the events of
R141 in one clock period and the bus-free time; both lines driven HIGH; BUS IDLE. In IDLE it faults with 4, before a
part-way frame faults with 5. FAULTCMD takes the word that CMD holds while its command runs (the model's reading,
log 5). -/
def Obligations.StopClosesTheTransaction : Prop :=
  decode 0x6000 = .ok .stop ∧ ∀ s : State,
    (s.bus = .addressed → s.frame = 0 → s.clockDir = .output →
      exec .stop s = .next
        { s with
          clockLvl := .high
          dataDir := .output
          dataLvl := .high
          bus := .idle
          now := s.now + 2 * s.params.halfLow + 2 * s.params.halfHigh + s.params.tBuf
          trace := s.trace ++
            [.drive s.now .clock .low, .drive s.now .data (driveOf .output s.dataLvl),
              .drive (s.now + s.params.halfLow) .data .low, .drive (s.now + 2 * s.params.halfLow) .clock .high,
              .drive (s.now + 2 * s.params.halfLow + s.params.halfHigh) .data .high] }) ∧
    (s.bus = .idle → exec .stop s = .next { s with fault := true, faultCode := 4, faultCmd := s.cmd }) ∧
    (s.bus = .addressed → s.frame ≠ 0 →
      exec .stop s = .next { s with fault := true, faultCode := 5, faultCmd := s.cmd })

/-! ## Framer (43_framer.md) -/

/-- SENDBIT (R164, with R160 and R163). Its words decode to it. In IDLE it faults with 4, at any FRAME. In a
transaction with CLOCK driven, DATA is driven to the bit's level through one bit slot, in both variants of
SEND_BIT_RELEASE, and FRAME advances mod 9. FAULTCMD takes the word that CMD holds while its command runs (the
model's reading, log 5). -/
def Obligations.SendbitDrivesOneSlot : Prop :=
  (∀ w : CmdWord, w &&& 0xFFFE = 0x7000 → decode w = .ok (.sendbit (w.getLsbD 0))) ∧
  ∀ (b : Bool) (s : State),
    (s.bus = .idle → exec (.sendbit b) s = .next { s with fault := true, faultCode := 4, faultCmd := s.cmd }) ∧
    (s.bus = .addressed → s.clockDir = .output → s.params.sendBitRelease = false →
      exec (.sendbit b) s = .next
        { s with
          clockLvl := .high
          dataDir := .output
          dataLvl := (if b then .high else .low)
          frame := s.frame + 1
          now := s.now + 2 * s.params.halfLow + 2 * s.params.halfHigh
          trace := s.trace ++
            [.drive s.now .clock .low, .drive s.now .data (driveOf .output s.dataLvl),
              .drive (s.now + s.params.halfLow) .data (if b then .high else .low),
              .drive (s.now + 2 * s.params.halfLow) .clock .high] }) ∧
    (s.bus = .addressed → s.clockDir = .output → s.params.sendBitRelease = true →
      exec (.sendbit b) s = .next
        { s with
          clockLvl := .low
          dataDir := .input
          dataLvl := (if b then .high else .low)
          frame := s.frame + 1
          now := s.now + 2 * s.params.halfLow + 2 * s.params.halfHigh
          trace := s.trace ++
            [.drive s.now .clock .low, .drive s.now .data (driveOf .output s.dataLvl),
              .drive (s.now + s.params.halfLow) .data (if b then .high else .low),
              .drive (s.now + 2 * s.params.halfLow) .clock .high,
              .drive (s.now + 2 * s.params.halfLow + 2 * s.params.halfHigh) .clock .low,
              .drive (s.now + 2 * s.params.halfLow + 2 * s.params.halfHigh) .data .released] })

/-- RECVBIT (R165, with R161 and R163). Its word decodes to it. In IDLE it faults with 4, at any FRAME. In a
transaction with CLOCK driven, DATA is released and sampled in the middle of the HIGH phase; RESULT0 is the drawn
bit, FRAME advances mod 9, LVL[DATA] is kept. FAULTCMD takes the word that CMD holds while its command runs (the
model's reading, log 5). A draw is the next entry of `env`, else a free value (the model's form of R27, log 2). -/
def Obligations.RecvbitSamplesOneSlot : Prop :=
  decode 0x8000 = .ok .recvbit ∧
  ∀ s : State,
    (s.bus = .idle → exec .recvbit s = .next { s with fault := true, faultCode := 4, faultCmd := s.cmd }) ∧
    (s.bus = .addressed → s.clockDir = .output →
      exec .recvbit s = .next
        { s with
          clockLvl := .high
          dataDir := .input
          frame := s.frame + 1
          now := s.now + 2 * s.params.halfLow + 2 * s.params.halfHigh
          trace := s.trace ++
            [.drive s.now .clock .low, .drive s.now .data .released, .drive (s.now + 2 * s.params.halfLow) .clock .high,
              .sample (s.now + 2 * s.params.halfLow + s.params.halfHigh) .data (s.drawAt 0 .data)]
          result0 := (if s.drawAt 0 .data = .high then 0x01 else 0x00)
          env := s.env.drop 1
          draws := s.draws + 1 })

/-- SENDBYTE (R166, with R163). Its words decode to it. In IDLE it faults with 4, in a transaction off FRAME 0 with
5. In a transaction at FRAME 0 with CLOCK driven, eight driven slots, bit 7 first; FRAME ends at 8 and NOW 8 clock
periods on. FAULTCMD takes the word that CMD holds while its command runs (the model's reading, log 5). -/
def Obligations.SendbyteDrivesEightSlots : Prop :=
  (∀ w : CmdWord, w &&& 0xFF00 = 0x9000 → decode w = .ok (.sendbyte (BitVec.ofNat 8 (w.toNat % 256)))) ∧
  ∀ (i : Byte) (s : State),
    (s.bus = .idle → exec (.sendbyte i) s = .next { s with fault := true, faultCode := 4, faultCmd := s.cmd }) ∧
    (s.bus = .addressed → s.frame ≠ 0 →
      exec (.sendbyte i) s = .next { s with fault := true, faultCode := 5, faultCmd := s.cmd }) ∧
    (s.bus = .addressed → s.frame = 0 → s.clockDir = .output →
      exec (.sendbyte i) s = .next
        { s with
          clockLvl := endClock s.params
          dataDir := endDir s.params
          dataLvl := levelOfBit (i.getLsbD 0)
          frame := 8
          now := s.now + 8 * tBit s.params
          trace := s.trace ++ waveform s.params s.now s.dataLvl (byteSlots i) })

/-- The order law of SENDBYTE (R174): in slot k, for k from 1 to 8, DATA is driven to the level of bit 8 - k,
HALF_LOW after the slot begins. -/
def Obligations.SendbyteDrivesBitsInOrder : Prop :=
  ∀ (i : Byte) (s : State), s.bus = .addressed → s.frame = 0 → s.clockDir = .output →
    ∃ t new, exec (.sendbyte i) s = .next t ∧ t.trace = s.trace ++ new ∧ ∀ k, 1 ≤ k → k ≤ 8 →
      Event.drive (s.now + (k - 1) * tBit s.params + s.params.halfLow) .data
        (if i.getLsbD (8 - k) then .high else .low) ∈ new

/-- RECVBYTE (R167, with R163). Its word decodes to it. In IDLE it faults with 4, in a transaction off FRAME 0 with
5. In a transaction at FRAME 0 with CLOCK driven, eight sampled slots; the first draw is bit 7 of RESULT0; FRAME
ends at 8 and NOW 8 clock periods on. FAULTCMD takes the word that CMD holds while its command runs (the model's
reading, log 5). A draw is the next entry of `env`, else a free value (the model's form of R27, log 2). -/
def Obligations.RecvbyteCollectsEightDraws : Prop :=
  decode 0xA000 = .ok .recvbyte ∧
  ∀ s : State,
    (s.bus = .idle → exec .recvbyte s = .next { s with fault := true, faultCode := 4, faultCmd := s.cmd }) ∧
    (s.bus = .addressed → s.frame ≠ 0 →
      exec .recvbyte s = .next { s with fault := true, faultCode := 5, faultCmd := s.cmd }) ∧
    (s.bus = .addressed → s.frame = 0 → s.clockDir = .output →
      exec .recvbyte s = .next
        { s with
          clockLvl := .high
          dataDir := .input
          frame := 8
          now := s.now + 8 * tBit s.params
          trace := s.trace ++ waveform s.params s.now s.dataLvl (s.drawnSlots 0 8)
          result0 := s.drawnByte 0
          env := s.env.drop 8
          draws := s.draws + 8 })

/-- The round trip of RECVBYTE (R174): for every byte, the environment putting its bits on DATA from bit 7 to bit 0,
the byte arrives in RESULT0. A draw is the next entry of `env`, else a free value (the model's form of R27, log 2). -/
def Obligations.RecvbyteReplaysEveryByte : Prop :=
  ∀ (b : Byte) (s : State) (rest : List Level), s.bus = .addressed → s.frame = 0 → s.clockDir = .output →
    s.env = ([7, 6, 5, 4, 3, 2, 1, 0].map fun k => if b.getLsbD k then .high else .low) ++ rest →
    ∃ t, exec .recvbyte s = .next t ∧ t.result0 = b ∧ t.env = rest

/-- SENDACK (R168, with R162 and R163). Its words decode to it. In IDLE it faults with 4, in a transaction off FRAME
8 with 5. In a transaction at FRAME 8 with CLOCK driven, one driven slot at the acknowledgement's level; FRAME ends
at 0; STATUS.NACK is not written. FAULTCMD takes the word that CMD holds while its command runs (the model's
reading, log 5). -/
def Obligations.SendackDrivesTheNinthSlot : Prop :=
  (∀ w : CmdWord, w &&& 0xFFFE = 0xB000 → decode w = .ok (.sendack (if w.getLsbD 0 then .nack else .ack))) ∧
  ∀ (a : Ack) (s : State),
    (s.bus = .idle → exec (.sendack a) s = .next { s with fault := true, faultCode := 4, faultCmd := s.cmd }) ∧
    (s.bus = .addressed → s.frame ≠ 8 →
      exec (.sendack a) s = .next { s with fault := true, faultCode := 5, faultCmd := s.cmd }) ∧
    (s.bus = .addressed → s.frame = 8 → s.clockDir = .output →
      exec (.sendack a) s = .next
        { s with
          clockLvl := endClock s.params
          dataDir := endDir s.params
          dataLvl := ackLevelOf s.params a
          frame := 0
          now := s.now + tBit s.params
          trace := s.trace ++ waveform s.params s.now s.dataLvl [.driven (ackLevelOf s.params a)] })

/-- RECVACK (R169, with R162 and R163). Its word decodes to it. In IDLE it faults with 4, in a transaction off FRAME
8 with 5. In a transaction at FRAME 8 with CLOCK driven, one sampled slot; RESULT0 is the raw bit, STATUS.NACK is 1
exactly if the draw is not ACK_LEVEL, STATUS.FAIL is kept; FRAME ends at 0. FAULTCMD takes the word that CMD holds
while its command runs (the model's reading, log 5). A draw is the next entry of `env`, else a free value (the
model's form of R27, log 2). -/
def Obligations.RecvackReportsTheAcknowledgement : Prop :=
  decode 0xC000 = .ok .recvack ∧
  ∀ s : State,
    (s.bus = .idle → exec .recvack s = .next { s with fault := true, faultCode := 4, faultCmd := s.cmd }) ∧
    (s.bus = .addressed → s.frame ≠ 8 →
      exec .recvack s = .next { s with fault := true, faultCode := 5, faultCmd := s.cmd }) ∧
    (s.bus = .addressed → s.frame = 8 → s.clockDir = .output →
      exec .recvack s = .next
        { s with
          clockLvl := .high
          dataDir := .input
          frame := 0
          now := s.now + tBit s.params
          trace := s.trace ++ waveform s.params s.now s.dataLvl [.sampled (s.drawAt 0 .data)]
          result0 := (if s.drawAt 0 .data = .high then 0x01 else 0x00)
          nack := decide (s.drawAt 0 .data ≠ s.params.ackLevel)
          env := s.env.drop 1
          draws := s.draws + 1 })

/-- SEND (R170, with R163). Its words decode to it. In IDLE it faults with 4, in a transaction off FRAME 0 with 5.
In a transaction at FRAME 0 with CLOCK driven, eight driven slots and one sampled one; STATUS.NACK and STATUS.FAIL
are both 1 exactly if the draw is not ACK_LEVEL; the transaction stays open at FRAME 0; RESULT0 is kept. FAULTCMD
takes the word that CMD holds while its command runs (the model's reading, log 5). A draw is the next entry of
`env`, else a free value (the model's form of R27, log 2). -/
def Obligations.SendFailsExactlyOnNack : Prop :=
  (∀ w : CmdWord, w &&& 0xFF00 = 0xD000 → decode w = .ok (.send (BitVec.ofNat 8 (w.toNat % 256)))) ∧
  ∀ (i : Byte) (s : State),
    (s.bus = .idle → exec (.send i) s = .next { s with fault := true, faultCode := 4, faultCmd := s.cmd }) ∧
    (s.bus = .addressed → s.frame ≠ 0 →
      exec (.send i) s = .next { s with fault := true, faultCode := 5, faultCmd := s.cmd }) ∧
    (s.bus = .addressed → s.frame = 0 → s.clockDir = .output →
      exec (.send i) s = .next
        { s with
          clockLvl := .high
          dataDir := .input
          dataLvl := levelOfBit (i.getLsbD 0)
          now := s.now + 9 * tBit s.params
          trace := s.trace ++
            waveform s.params s.now s.dataLvl (byteSlots i ++ [.sampled (s.drawAt 0 .data)])
          nack := decide (s.drawAt 0 .data ≠ s.params.ackLevel)
          fail := decide (s.drawAt 0 .data ≠ s.params.ackLevel)
          env := s.env.drop 1
          draws := s.draws + 1 })

/-- RECV (R171, with R163). Its words decode to it. In IDLE it faults with 4, in a transaction off FRAME 0 with 5.
In a transaction at FRAME 0 with CLOCK driven, eight sampled slots and one driven at the level of the
acknowledgement; RESULT0 is the byte drawn; FRAME is 0 again; STATUS.NACK and STATUS.FAIL are kept. FAULTCMD takes
the word that CMD holds while its command runs (the model's reading, log 5). A draw is the next entry of `env`, else
a free value (the model's form of R27, log 2). -/
def Obligations.RecvReadsAByteAndAnswers : Prop :=
  (∀ w : CmdWord, w &&& 0xFEFF = 0xE000 → decode w = .ok (.recv (if w.getLsbD 8 then .nack else .ack))) ∧
  ∀ (a : Ack) (s : State),
    (s.bus = .idle → exec (.recv a) s = .next { s with fault := true, faultCode := 4, faultCmd := s.cmd }) ∧
    (s.bus = .addressed → s.frame ≠ 0 →
      exec (.recv a) s = .next { s with fault := true, faultCode := 5, faultCmd := s.cmd }) ∧
    (s.bus = .addressed → s.frame = 0 → s.clockDir = .output →
      exec (.recv a) s = .next
        { s with
          clockLvl := endClock s.params
          dataDir := endDir s.params
          dataLvl := ackLevelOf s.params a
          now := s.now + 9 * tBit s.params
          trace := s.trace ++
            waveform s.params s.now s.dataLvl (s.drawnSlots 0 8 ++ [.driven (ackLevelOf s.params a)])
          result0 := s.drawnByte 0
          env := s.env.drop 8
          draws := s.draws + 8 })

/-! ## Sequencer (44_sequencer.md) -/

/-- INITP with every byte acknowledged (R202). Its word decodes to it. One transaction of START, DEV_W, INIT_START
and INIT_VALUES in order, STOP. It ends IDLE with both lines driven HIGH and STATUS.NACK and STATUS.FAIL 0, after `2
T_BIT + T_BUF + (2+N) 9 T_BIT`. A draw is the next entry of `env`, else a free value (the model's form of R27, log
2). -/
def Obligations.InitpWritesTheWholeBlock : Prop :=
  decode 0xF000 = .ok .initp ∧ ∀ s : State, s.bus = .idle → s.clockDir = .output →
    (∀ k, k < 2 + s.params.initValues.length → s.ackAt k = .ack) →
    exec .initp s = .next
      { s with
        clockLvl := .high
        dataDir := .output
        dataLvl := .high
        now := s.now + 2 * tBit s.params + s.params.tBuf + (2 + s.params.initValues.length) * (9 * tBit s.params)
        trace := s.trace ++ waveform s.params s.now s.dataLvl
          (.start :: s.sentSlots 0 (devW s.params :: s.params.initStart :: s.params.initValues) ++ [.stop])
        nack := false
        fail := false
        env := s.env.drop (2 + s.params.initValues.length)
        draws := s.draws + (2 + s.params.initValues.length) }

/-- INITP with the first NACK at byte k + 1 (R201, R202): no byte after it is sent, the transaction is closed with
one STOP, STATUS.NACK and STATUS.FAIL are 1, after `2 T_BIT + T_BUF + (k+1) 9 T_BIT`. A draw is the next entry of
`env`, else a free value (the model's form of R27, log 2). -/
def Obligations.InitpStopsAtTheFirstNack : Prop :=
  ∀ (s : State) (k : Nat), s.bus = .idle → s.clockDir = .output → k < 2 + s.params.initValues.length →
    (∀ j, j < k → s.ackAt j = .ack) → s.ackAt k = .nack →
    exec .initp s = .next
      { s with
        clockLvl := .high
        dataDir := .output
        dataLvl := .high
        now := s.now + 2 * tBit s.params + s.params.tBuf + (k + 1) * (9 * tBit s.params)
        trace := s.trace ++ waveform s.params s.now s.dataLvl
          (.start :: s.sentSlots 0 ((devW s.params :: s.params.initStart :: s.params.initValues).take (k + 1))
            ++ [.stop])
        nack := true
        fail := true
        env := s.env.drop (k + 1)
        draws := s.draws + (k + 1) }

/-- READBLK with its three address bytes acknowledged (R203, R66). Its words decode to it. RBUF[k] receives the k-th
byte drawn for k below the count and keeps its value above, the slots sent are ACK after each byte but the last and
NACK after the last, and the command ends IDLE with STATUS.NACK and STATUS.FAIL 0 after `3 T_BIT + T_BUF + (3+K) 9
T_BIT`. A draw is the next entry of `env`, else a free value (the model's form of R27, log 2). -/
def Obligations.ReadblkReadsTheBlock : Prop :=
  (∀ w : CmdWord, w &&& 0xF800 = 0xF800 → decode w =
    .ok (.readblk (BitVec.ofNat 8 (w.toNat % 256)) (w.toNat / 256 % 8 + 1))) ∧
  ∀ (i : Byte) (count : Nat) (s : State), 1 ≤ count → count ≤ 8 → s.bus = .idle → s.clockDir = .output →
    s.ackAt 0 = .ack → s.ackAt 1 = .ack → s.ackAt 2 = .ack →
    exec (.readblk i count) s = .next
      { s with
        clockLvl := .high
        dataDir := .output
        dataLvl := .high
        now := s.now + 3 * tBit s.params + s.params.tBuf + (3 + count) * (9 * tBit s.params)
        trace := s.trace ++ waveform s.params s.now s.dataLvl
          (.start :: s.sentSlots 0 [devW s.params, i] ++ .start :: s.sentSlots 2 [devR s.params]
            ++ s.readSlots 3 count ++ [.stop])
        nack := false
        fail := false
        rbuf := Vector.ofFn fun k : Fin 8 => if k.val < count then s.drawnByte (3 + 8 * k.val) else s.rbuf[k]
        env := s.env.drop (3 + 8 * count)
        draws := s.draws + (3 + 8 * count) }

/-- READBLK with a NACK of DEV_W, of the register address, or of DEV_R (R201, R203): nothing after it is sent, the
transaction is closed with one STOP, STATUS.NACK and STATUS.FAIL are 1, RBUF keeps its contents. A draw is the next
entry of `env`, else a free value (the model's form of R27, log 2). -/
def Obligations.ReadblkFailureKeepsRbuf : Prop :=
  ∀ (i : Byte) (count : Nat) (s : State), 1 ≤ count → count ≤ 8 → s.bus = .idle → s.clockDir = .output →
    (s.ackAt 0 = .nack →
      exec (.readblk i count) s = .next
        { s with
          clockLvl := .high, dataDir := .output, dataLvl := .high
          now := s.now + 2 * tBit s.params + s.params.tBuf + 9 * tBit s.params
          trace := s.trace ++ waveform s.params s.now s.dataLvl
            (.start :: s.sentSlots 0 [devW s.params] ++ [.stop])
          nack := true, fail := true, env := s.env.drop 1, draws := s.draws + 1 }) ∧
    (s.ackAt 0 = .ack → s.ackAt 1 = .nack →
      exec (.readblk i count) s = .next
        { s with
          clockLvl := .high, dataDir := .output, dataLvl := .high
          now := s.now + 2 * tBit s.params + s.params.tBuf + 18 * tBit s.params
          trace := s.trace ++ waveform s.params s.now s.dataLvl
            (.start :: s.sentSlots 0 [devW s.params, i] ++ [.stop])
          nack := true, fail := true, env := s.env.drop 2, draws := s.draws + 2 }) ∧
    (s.ackAt 0 = .ack → s.ackAt 1 = .ack → s.ackAt 2 = .nack →
      exec (.readblk i count) s = .next
        { s with
          clockLvl := .high, dataDir := .output, dataLvl := .high
          now := s.now + 3 * tBit s.params + s.params.tBuf + 27 * tBit s.params
          trace := s.trace ++ waveform s.params s.now s.dataLvl
            (.start :: s.sentSlots 0 [devW s.params, i] ++ .start :: s.sentSlots 2 [devR s.params] ++ [.stop])
          nack := true, fail := true, env := s.env.drop 3, draws := s.draws + 3 })

/-- The checks of INITP and READBLK (R200, R234): in a transaction they fault with 8; in IDLE with CLOCK released
they fault with 2, before any event. FAULTCMD takes the word that CMD holds while its command runs (the model's
reading, log 5). -/
def Obligations.SequencerChecksComeFirst : Prop :=
  ∀ (i : Byte) (count : Nat) (s : State), 1 ≤ count → count ≤ 8 → ∀ x ∈ [Instr.initp, .readblk i count],
    (s.bus = .addressed → exec x s = .next { s with fault := true, faultCode := 8, faultCmd := s.cmd }) ∧
    (s.bus = .idle → s.clockDir = .input →
      exec x s = .next { s with fault := true, faultCode := 2, faultCmd := s.cmd })

/-! ## Whole-machine rules, over all commands -/

/-- Every command ends (R237): for every command and every state there is a next state; nothing hangs, nothing is
refused. -/
def Obligations.EveryCommandEnds : Prop :=
  ∀ (i : Instr) (s : State), ∃ t, exec i s = .next t

/-- `raise Fault(code)` (R232, R233): a command that raises a fault sets STATUS.FAULT, FAULTCODE to a code of R231
and FAULTCMD to the command's word, and changes nothing else: no event, no delay, no register. FAULTCMD takes the
word that CMD holds while its command runs (the model's reading, log 5). -/
def Obligations.FaultsChangeOnlyTheirRecord : Prop :=
  ∀ (i : Instr) (s t : State), s.fault = false → exec i s = .next t → t.fault = true →
    ∃ c : FaultCode, t = { s with fault := true, faultCode := c.code, faultCmd := s.cmd } ∧
      1 ≤ t.faultCode.toNat ∧ t.faultCode.toNat ≤ 8

/-- The record of the first fault is held (R38, R235): once STATUS.FAULT is 1, no step but a reset changes anything
but the model's own queue and reply list; and the step that raises it records the word that was written to CMD. -/
def Obligations.FirstFaultIsHeldUntilReset : Prop :=
  ∀ (s t : State) (x : HostAccess) (rest : List HostAccess), s.pending = x :: rest → step s = .next t →
    (s.fault = true → x ≠ .reset → t = { s with pending := rest, replies := t.replies }) ∧
    (s.fault = false → t.fault = true →
      ∃ w, x = .write 0 2 w ∧ t.faultCmd = w ∧ 1 ≤ t.faultCode.toNat ∧ t.faultCode.toNat ≤ 8) ∧
    (s.fault = false → t.fault = false → x ≠ .reset → t.faultCode = s.faultCode ∧ t.faultCmd = s.faultCmd)

/-- STATUS.NACK is written only by RECVACK, SEND, INITP and READBLK (R36). -/
def Obligations.OnlyAcknowledgedCommandsWriteNack : Prop :=
  ∀ (i : Instr) (s t : State), exec i s = .next t → t.nack ≠ s.nack →
    i = .recvack ∨ (∃ b, i = .send b) ∨ i = .initp ∨ ∃ b n, i = .readblk b n

/-- STATUS.FAIL is written only by SEND, INITP and READBLK (R37). -/
def Obligations.OnlyTransfersWriteFail : Prop :=
  ∀ (i : Instr) (s t : State), exec i s = .next t → t.fail ≠ s.fail →
    (∃ b, i = .send b) ∨ i = .initp ∨ ∃ b n, i = .readblk b n

/-- RESULT0 changes only in READLVL, RECVBIT, RECVBYTE, RECVACK, RECV and BCD, RESULT1 only in BCD, and RBUF only in a
READBLK that succeeds: the "every other command leaves them unchanged" of R43 and the "only" of R44. What those
commands write is said by their own statements. -/
def Obligations.ResultsAreWrittenOnlyByTheirCommands : Prop :=
  ∀ (i : Instr) (s t : State), exec i s = .next t →
    (t.result0 ≠ s.result0 →
      (∃ l, i = .readlvl l) ∨ i = .recvbit ∨ i = .recvbyte ∨ i = .recvack ∨ (∃ a, i = .recv a) ∨ ∃ r b, i = .bcd r b) ∧
    (t.result1 ≠ s.result1 → ∃ r b, i = .bcd r b) ∧
    (t.rbuf ≠ s.rbuf → (∃ b n, i = .readblk b n) ∧ t.fault = s.fault ∧ t.fail = false)

/-- BUS moves only by START, from IDLE to ADDRESSED, and by STOP, from ADDRESSED to IDLE (R28); a START that does
not fault ends ADDRESSED. -/
def Obligations.OnlyStartAndStopMoveTheBus : Prop :=
  ∀ (i : Instr) (s t : State), exec i s = .next t →
    (t.bus ≠ s.bus →
      (i = .start ∧ s.bus = .idle ∧ t.bus = .addressed) ∨ (i = .stop ∧ s.bus = .addressed ∧ t.bus = .idle)) ∧
    (i = .start → s.frame = 0 → s.clockDir = .output → t.bus = .addressed) ∧
    (i = .stop → s.bus = .addressed → s.frame = 0 → s.clockDir = .output → t.bus = .idle)

/-- A Signal Driver command changes none of BUS, FRAME, STATUS.NACK, STATUS.FAIL (R120). -/
def Obligations.SignalDriverLeavesTheEngineAlone : Prop :=
  ∀ (l : Line) (d : Dir) (v : Level) (n : Nat) (s t : State),
    ∀ i ∈ [Instr.setdir l d, .setlvl l v, .readlvl l, .delay n], exec i s = .next t →
      t.bus = s.bus ∧ t.frame = s.frame ∧ t.nack = s.nack ∧ t.fail = s.fail

/-- NOW never falls and TRACE only grows at its end, in every step but a reset (R31, R32, R72); no step changes the
parameters (R45; log 1). -/
def Obligations.TimeAndTraceOnlyGrow : Prop :=
  ∀ (s t : State), step s = .next t →
    t.params = s.params ∧
    ((∀ rest, s.pending ≠ .reset :: rest) → s.now ≤ t.now ∧ ∃ new, t.trace = s.trace ++ new)

/-- No command takes longer than its row of R267 says, the rows of INITP and READBLK being those of success; nothing
waits on the environment (R237). -/
def Obligations.CommandsKeepTheirTimeBudget : Prop :=
  ∀ (i : Instr) (s t : State), exec i s = .next t →
    t.now ≤ s.now +
      (match i with
      | .bcd _ _ | .setdir _ _ | .setlvl _ _ | .readlvl _ => 0
      | .delay n => n
      | .start => tBit s.params
      | .stop => tBit s.params + s.params.tBuf
      | .sendbit _ | .recvbit | .sendack _ | .recvack => tBit s.params
      | .sendbyte _ | .recvbyte => 8 * tBit s.params
      | .send _ | .recv _ => 9 * tBit s.params
      | .initp => 2 * tBit s.params + s.params.tBuf + (2 + s.params.initValues.length) * (9 * tBit s.params)
      | .readblk _ count => 3 * tBit s.params + s.params.tBuf + (3 + count) * (9 * tBit s.params))

/-- No Signal Driver and no framer command makes a START or STOP condition (R119, R172): from a state whose lines
carry the drives in force at the end of TRACE, the conditions in TRACE stay the same. -/
def Obligations.OnlyTheEngineMakesConditions : Prop :=
  ∀ (i : Instr) (s t : State), s.DriveInv → exec i s = .next t →
    conditions t.trace ≠ conditions s.trace → i = .start ∨ i = .stop ∨ i = .initp ∨ ∃ b n, i = .readblk b n

/-- INITP and READBLK that do not fault (R207): the last condition they add is a STOP and it is the only STOP they
add; they end IDLE with FRAME as it was. -/
def Obligations.SequencesCloseWithOneStop : Prop :=
  ∀ (i : Byte) (count : Nat) (s t : State), 1 ≤ count → count ≤ 8 → s.bus = .idle → s.clockDir = .output →
    ∀ x ∈ [Instr.initp, .readblk i count], exec x s = .next t →
      t.bus = .idle ∧ t.frame = s.frame ∧
      ∃ starts : List (Condition × Nat), (∀ c ∈ starts, c.1 = .start) ∧ starts ≠ [] ∧
        conditions t.trace =
          conditions s.trace ++ starts ++ [(.stop, t.now - s.params.tBuf - s.params.halfHigh)]

/-! ## Invariants -/

/-- The invariants hold at reset (R30, R38, R72, R33, R146, R145 at R48). That CMD is 0x0000 between commands, a part of
the fault record's invariant, is the model's reading (log 5). -/
def Obligations.ResetMeetsTheInvariants : Prop :=
  State.reset.BusInv ∧ State.reset.RecordInv ∧ State.reset.TimeInv ∧ State.reset.DriveInv ∧ State.reset.NestInv ∧
    State.reset.FreeTimeInv

/-- R30 is kept by every step. -/
def Obligations.StepKeepsTheBusInvariant : Prop :=
  ∀ s t : State, s.BusInv → step s = .next t → t.BusInv

/-- The record of R38 is kept by every step: FAULTCODE and FAULTCMD are 0 while no fault is recorded, and FAULTCODE is a
code of R231 once one is. The invariant's third part, that CMD is 0x0000 between commands, is the model's reading of
R34 (log 5), not a rule of the spec. -/
def Obligations.StepKeepsTheFaultRecord : Prop :=
  ∀ s t : State, s.RecordInv → step s = .next t → t.RecordInv

/-- R72 is kept by every step: the bus events stay ordered by time. -/
def Obligations.StepKeepsEventsInOrder : Prop :=
  ∀ s t : State, s.TimeInv → step s = .next t → t.TimeInv

/-- TRACE stays the record of the lines (R32, R33): the drives in force at its end are the lines' drives after every
step. -/
def Obligations.StepKeepsTheTraceTrue : Prop :=
  ∀ s t : State, s.DriveInv → step s = .next t → t.DriveInv

/-- Transactions are well nested (R146): a START comes first, between two STOPs there is a START, and BUS is
ADDRESSED exactly while a transaction is open; every step keeps this. -/
def Obligations.StepKeepsTransactionsNested : Prop :=
  ∀ s t : State, s.DriveInv → s.NestInv → step s = .next t → t.NestInv

/-- The bus-free time always holds (R145): every STOP condition and the next START condition lie at least `T_LOW +
T_HIGH + T_BUF` apart; every step keeps this. -/
def Obligations.StepKeepsTheBusFreeTime : Prop :=
  ∀ s t : State, s.DriveInv → s.FreeTimeInv → step s = .next t → t.FreeTimeInv
end

