-- ==== Sys2Proof/Laws/State.lean ====
section
/-! SUPPORT. One lemma per field per update of the state, true by definition. -/

namespace Sys2Proof.Machine

/-! ## s.setDir .clock d -/

@[simp] theorem State.setDir_clock_clockDir (s : State) (d : Dir) : (s.setDir .clock d).clockDir = d := rfl
@[simp] theorem State.setDir_clock_clockLvl (s : State) (d : Dir) : (s.setDir .clock d).clockLvl = s.clockLvl := rfl
@[simp] theorem State.setDir_clock_dataDir (s : State) (d : Dir) : (s.setDir .clock d).dataDir = s.dataDir := rfl
@[simp] theorem State.setDir_clock_dataLvl (s : State) (d : Dir) : (s.setDir .clock d).dataLvl = s.dataLvl := rfl
@[simp] theorem State.setDir_clock_bus (s : State) (d : Dir) : (s.setDir .clock d).bus = s.bus := rfl
@[simp] theorem State.setDir_clock_frame (s : State) (d : Dir) : (s.setDir .clock d).frame = s.frame := rfl
@[simp] theorem State.setDir_clock_now (s : State) (d : Dir) : (s.setDir .clock d).now = s.now := rfl
@[simp] theorem State.setDir_clock_trace (s : State) (d : Dir) : (s.setDir .clock d).trace = s.trace := rfl
@[simp] theorem State.setDir_clock_cmd (s : State) (d : Dir) : (s.setDir .clock d).cmd = s.cmd := rfl
@[simp] theorem State.setDir_clock_nack (s : State) (d : Dir) : (s.setDir .clock d).nack = s.nack := rfl
@[simp] theorem State.setDir_clock_fail (s : State) (d : Dir) : (s.setDir .clock d).fail = s.fail := rfl
@[simp] theorem State.setDir_clock_fault (s : State) (d : Dir) : (s.setDir .clock d).fault = s.fault := rfl
@[simp] theorem State.setDir_clock_faultCode (s : State) (d : Dir) : (s.setDir .clock d).faultCode = s.faultCode := rfl
@[simp] theorem State.setDir_clock_faultCmd (s : State) (d : Dir) : (s.setDir .clock d).faultCmd = s.faultCmd := rfl
@[simp] theorem State.setDir_clock_result0 (s : State) (d : Dir) : (s.setDir .clock d).result0 = s.result0 := rfl
@[simp] theorem State.setDir_clock_result1 (s : State) (d : Dir) : (s.setDir .clock d).result1 = s.result1 := rfl
@[simp] theorem State.setDir_clock_rbuf (s : State) (d : Dir) : (s.setDir .clock d).rbuf = s.rbuf := rfl
@[simp] theorem State.setDir_clock_params (s : State) (d : Dir) : (s.setDir .clock d).params = s.params := rfl
@[simp] theorem State.setDir_clock_env (s : State) (d : Dir) : (s.setDir .clock d).env = s.env := rfl
@[simp] theorem State.setDir_clock_draws (s : State) (d : Dir) : (s.setDir .clock d).draws = s.draws := rfl
@[simp] theorem State.setDir_clock_pending (s : State) (d : Dir) : (s.setDir .clock d).pending = s.pending := rfl
@[simp] theorem State.setDir_clock_replies (s : State) (d : Dir) : (s.setDir .clock d).replies = s.replies := rfl

/-! ## s.setDir .data d -/

@[simp] theorem State.setDir_data_clockDir (s : State) (d : Dir) : (s.setDir .data d).clockDir = s.clockDir := rfl
@[simp] theorem State.setDir_data_clockLvl (s : State) (d : Dir) : (s.setDir .data d).clockLvl = s.clockLvl := rfl
@[simp] theorem State.setDir_data_dataDir (s : State) (d : Dir) : (s.setDir .data d).dataDir = d := rfl
@[simp] theorem State.setDir_data_dataLvl (s : State) (d : Dir) : (s.setDir .data d).dataLvl = s.dataLvl := rfl
@[simp] theorem State.setDir_data_bus (s : State) (d : Dir) : (s.setDir .data d).bus = s.bus := rfl
@[simp] theorem State.setDir_data_frame (s : State) (d : Dir) : (s.setDir .data d).frame = s.frame := rfl
@[simp] theorem State.setDir_data_now (s : State) (d : Dir) : (s.setDir .data d).now = s.now := rfl
@[simp] theorem State.setDir_data_trace (s : State) (d : Dir) : (s.setDir .data d).trace = s.trace := rfl
@[simp] theorem State.setDir_data_cmd (s : State) (d : Dir) : (s.setDir .data d).cmd = s.cmd := rfl
@[simp] theorem State.setDir_data_nack (s : State) (d : Dir) : (s.setDir .data d).nack = s.nack := rfl
@[simp] theorem State.setDir_data_fail (s : State) (d : Dir) : (s.setDir .data d).fail = s.fail := rfl
@[simp] theorem State.setDir_data_fault (s : State) (d : Dir) : (s.setDir .data d).fault = s.fault := rfl
@[simp] theorem State.setDir_data_faultCode (s : State) (d : Dir) : (s.setDir .data d).faultCode = s.faultCode := rfl
@[simp] theorem State.setDir_data_faultCmd (s : State) (d : Dir) : (s.setDir .data d).faultCmd = s.faultCmd := rfl
@[simp] theorem State.setDir_data_result0 (s : State) (d : Dir) : (s.setDir .data d).result0 = s.result0 := rfl
@[simp] theorem State.setDir_data_result1 (s : State) (d : Dir) : (s.setDir .data d).result1 = s.result1 := rfl
@[simp] theorem State.setDir_data_rbuf (s : State) (d : Dir) : (s.setDir .data d).rbuf = s.rbuf := rfl
@[simp] theorem State.setDir_data_params (s : State) (d : Dir) : (s.setDir .data d).params = s.params := rfl
@[simp] theorem State.setDir_data_env (s : State) (d : Dir) : (s.setDir .data d).env = s.env := rfl
@[simp] theorem State.setDir_data_draws (s : State) (d : Dir) : (s.setDir .data d).draws = s.draws := rfl
@[simp] theorem State.setDir_data_pending (s : State) (d : Dir) : (s.setDir .data d).pending = s.pending := rfl
@[simp] theorem State.setDir_data_replies (s : State) (d : Dir) : (s.setDir .data d).replies = s.replies := rfl

/-! ## s.setLvl .clock v -/

@[simp] theorem State.setLvl_clock_clockDir (s : State) (v : Level) : (s.setLvl .clock v).clockDir = s.clockDir := rfl
@[simp] theorem State.setLvl_clock_clockLvl (s : State) (v : Level) : (s.setLvl .clock v).clockLvl = v := rfl
@[simp] theorem State.setLvl_clock_dataDir (s : State) (v : Level) : (s.setLvl .clock v).dataDir = s.dataDir := rfl
@[simp] theorem State.setLvl_clock_dataLvl (s : State) (v : Level) : (s.setLvl .clock v).dataLvl = s.dataLvl := rfl
@[simp] theorem State.setLvl_clock_bus (s : State) (v : Level) : (s.setLvl .clock v).bus = s.bus := rfl
@[simp] theorem State.setLvl_clock_frame (s : State) (v : Level) : (s.setLvl .clock v).frame = s.frame := rfl
@[simp] theorem State.setLvl_clock_now (s : State) (v : Level) : (s.setLvl .clock v).now = s.now := rfl
@[simp] theorem State.setLvl_clock_trace (s : State) (v : Level) : (s.setLvl .clock v).trace = s.trace := rfl
@[simp] theorem State.setLvl_clock_cmd (s : State) (v : Level) : (s.setLvl .clock v).cmd = s.cmd := rfl
@[simp] theorem State.setLvl_clock_nack (s : State) (v : Level) : (s.setLvl .clock v).nack = s.nack := rfl
@[simp] theorem State.setLvl_clock_fail (s : State) (v : Level) : (s.setLvl .clock v).fail = s.fail := rfl
@[simp] theorem State.setLvl_clock_fault (s : State) (v : Level) : (s.setLvl .clock v).fault = s.fault := rfl
@[simp] theorem State.setLvl_clock_faultCode (s : State) (v : Level) : (s.setLvl .clock v).faultCode = s.faultCode := rfl
@[simp] theorem State.setLvl_clock_faultCmd (s : State) (v : Level) : (s.setLvl .clock v).faultCmd = s.faultCmd := rfl
@[simp] theorem State.setLvl_clock_result0 (s : State) (v : Level) : (s.setLvl .clock v).result0 = s.result0 := rfl
@[simp] theorem State.setLvl_clock_result1 (s : State) (v : Level) : (s.setLvl .clock v).result1 = s.result1 := rfl
@[simp] theorem State.setLvl_clock_rbuf (s : State) (v : Level) : (s.setLvl .clock v).rbuf = s.rbuf := rfl
@[simp] theorem State.setLvl_clock_params (s : State) (v : Level) : (s.setLvl .clock v).params = s.params := rfl
@[simp] theorem State.setLvl_clock_env (s : State) (v : Level) : (s.setLvl .clock v).env = s.env := rfl
@[simp] theorem State.setLvl_clock_draws (s : State) (v : Level) : (s.setLvl .clock v).draws = s.draws := rfl
@[simp] theorem State.setLvl_clock_pending (s : State) (v : Level) : (s.setLvl .clock v).pending = s.pending := rfl
@[simp] theorem State.setLvl_clock_replies (s : State) (v : Level) : (s.setLvl .clock v).replies = s.replies := rfl

/-! ## s.setLvl .data v -/

@[simp] theorem State.setLvl_data_clockDir (s : State) (v : Level) : (s.setLvl .data v).clockDir = s.clockDir := rfl
@[simp] theorem State.setLvl_data_clockLvl (s : State) (v : Level) : (s.setLvl .data v).clockLvl = s.clockLvl := rfl
@[simp] theorem State.setLvl_data_dataDir (s : State) (v : Level) : (s.setLvl .data v).dataDir = s.dataDir := rfl
@[simp] theorem State.setLvl_data_dataLvl (s : State) (v : Level) : (s.setLvl .data v).dataLvl = v := rfl
@[simp] theorem State.setLvl_data_bus (s : State) (v : Level) : (s.setLvl .data v).bus = s.bus := rfl
@[simp] theorem State.setLvl_data_frame (s : State) (v : Level) : (s.setLvl .data v).frame = s.frame := rfl
@[simp] theorem State.setLvl_data_now (s : State) (v : Level) : (s.setLvl .data v).now = s.now := rfl
@[simp] theorem State.setLvl_data_trace (s : State) (v : Level) : (s.setLvl .data v).trace = s.trace := rfl
@[simp] theorem State.setLvl_data_cmd (s : State) (v : Level) : (s.setLvl .data v).cmd = s.cmd := rfl
@[simp] theorem State.setLvl_data_nack (s : State) (v : Level) : (s.setLvl .data v).nack = s.nack := rfl
@[simp] theorem State.setLvl_data_fail (s : State) (v : Level) : (s.setLvl .data v).fail = s.fail := rfl
@[simp] theorem State.setLvl_data_fault (s : State) (v : Level) : (s.setLvl .data v).fault = s.fault := rfl
@[simp] theorem State.setLvl_data_faultCode (s : State) (v : Level) : (s.setLvl .data v).faultCode = s.faultCode := rfl
@[simp] theorem State.setLvl_data_faultCmd (s : State) (v : Level) : (s.setLvl .data v).faultCmd = s.faultCmd := rfl
@[simp] theorem State.setLvl_data_result0 (s : State) (v : Level) : (s.setLvl .data v).result0 = s.result0 := rfl
@[simp] theorem State.setLvl_data_result1 (s : State) (v : Level) : (s.setLvl .data v).result1 = s.result1 := rfl
@[simp] theorem State.setLvl_data_rbuf (s : State) (v : Level) : (s.setLvl .data v).rbuf = s.rbuf := rfl
@[simp] theorem State.setLvl_data_params (s : State) (v : Level) : (s.setLvl .data v).params = s.params := rfl
@[simp] theorem State.setLvl_data_env (s : State) (v : Level) : (s.setLvl .data v).env = s.env := rfl
@[simp] theorem State.setLvl_data_draws (s : State) (v : Level) : (s.setLvl .data v).draws = s.draws := rfl
@[simp] theorem State.setLvl_data_pending (s : State) (v : Level) : (s.setLvl .data v).pending = s.pending := rfl
@[simp] theorem State.setLvl_data_replies (s : State) (v : Level) : (s.setLvl .data v).replies = s.replies := rfl

/-! ## s.emit e -/

@[simp] theorem State.emit_clockDir (s : State) (e : Event) : (s.emit e).clockDir = s.clockDir := rfl
@[simp] theorem State.emit_clockLvl (s : State) (e : Event) : (s.emit e).clockLvl = s.clockLvl := rfl
@[simp] theorem State.emit_dataDir (s : State) (e : Event) : (s.emit e).dataDir = s.dataDir := rfl
@[simp] theorem State.emit_dataLvl (s : State) (e : Event) : (s.emit e).dataLvl = s.dataLvl := rfl
@[simp] theorem State.emit_bus (s : State) (e : Event) : (s.emit e).bus = s.bus := rfl
@[simp] theorem State.emit_frame (s : State) (e : Event) : (s.emit e).frame = s.frame := rfl
@[simp] theorem State.emit_now (s : State) (e : Event) : (s.emit e).now = s.now := rfl
@[simp] theorem State.emit_trace (s : State) (e : Event) : (s.emit e).trace = s.trace ++ [e] := rfl
@[simp] theorem State.emit_cmd (s : State) (e : Event) : (s.emit e).cmd = s.cmd := rfl
@[simp] theorem State.emit_nack (s : State) (e : Event) : (s.emit e).nack = s.nack := rfl
@[simp] theorem State.emit_fail (s : State) (e : Event) : (s.emit e).fail = s.fail := rfl
@[simp] theorem State.emit_fault (s : State) (e : Event) : (s.emit e).fault = s.fault := rfl
@[simp] theorem State.emit_faultCode (s : State) (e : Event) : (s.emit e).faultCode = s.faultCode := rfl
@[simp] theorem State.emit_faultCmd (s : State) (e : Event) : (s.emit e).faultCmd = s.faultCmd := rfl
@[simp] theorem State.emit_result0 (s : State) (e : Event) : (s.emit e).result0 = s.result0 := rfl
@[simp] theorem State.emit_result1 (s : State) (e : Event) : (s.emit e).result1 = s.result1 := rfl
@[simp] theorem State.emit_rbuf (s : State) (e : Event) : (s.emit e).rbuf = s.rbuf := rfl
@[simp] theorem State.emit_params (s : State) (e : Event) : (s.emit e).params = s.params := rfl
@[simp] theorem State.emit_env (s : State) (e : Event) : (s.emit e).env = s.env := rfl
@[simp] theorem State.emit_draws (s : State) (e : Event) : (s.emit e).draws = s.draws := rfl
@[simp] theorem State.emit_pending (s : State) (e : Event) : (s.emit e).pending = s.pending := rfl
@[simp] theorem State.emit_replies (s : State) (e : Event) : (s.emit e).replies = s.replies := rfl

/-! ## s.emitDrive l -/

@[simp] theorem State.emitDrive_clockDir (s : State) (l : Line) : (s.emitDrive l).clockDir = s.clockDir := rfl
@[simp] theorem State.emitDrive_clockLvl (s : State) (l : Line) : (s.emitDrive l).clockLvl = s.clockLvl := rfl
@[simp] theorem State.emitDrive_dataDir (s : State) (l : Line) : (s.emitDrive l).dataDir = s.dataDir := rfl
@[simp] theorem State.emitDrive_dataLvl (s : State) (l : Line) : (s.emitDrive l).dataLvl = s.dataLvl := rfl
@[simp] theorem State.emitDrive_bus (s : State) (l : Line) : (s.emitDrive l).bus = s.bus := rfl
@[simp] theorem State.emitDrive_frame (s : State) (l : Line) : (s.emitDrive l).frame = s.frame := rfl
@[simp] theorem State.emitDrive_now (s : State) (l : Line) : (s.emitDrive l).now = s.now := rfl
@[simp] theorem State.emitDrive_trace (s : State) (l : Line) : (s.emitDrive l).trace = s.trace ++ [.drive s.now l (s.drive l)] := rfl
@[simp] theorem State.emitDrive_cmd (s : State) (l : Line) : (s.emitDrive l).cmd = s.cmd := rfl
@[simp] theorem State.emitDrive_nack (s : State) (l : Line) : (s.emitDrive l).nack = s.nack := rfl
@[simp] theorem State.emitDrive_fail (s : State) (l : Line) : (s.emitDrive l).fail = s.fail := rfl
@[simp] theorem State.emitDrive_fault (s : State) (l : Line) : (s.emitDrive l).fault = s.fault := rfl
@[simp] theorem State.emitDrive_faultCode (s : State) (l : Line) : (s.emitDrive l).faultCode = s.faultCode := rfl
@[simp] theorem State.emitDrive_faultCmd (s : State) (l : Line) : (s.emitDrive l).faultCmd = s.faultCmd := rfl
@[simp] theorem State.emitDrive_result0 (s : State) (l : Line) : (s.emitDrive l).result0 = s.result0 := rfl
@[simp] theorem State.emitDrive_result1 (s : State) (l : Line) : (s.emitDrive l).result1 = s.result1 := rfl
@[simp] theorem State.emitDrive_rbuf (s : State) (l : Line) : (s.emitDrive l).rbuf = s.rbuf := rfl
@[simp] theorem State.emitDrive_params (s : State) (l : Line) : (s.emitDrive l).params = s.params := rfl
@[simp] theorem State.emitDrive_env (s : State) (l : Line) : (s.emitDrive l).env = s.env := rfl
@[simp] theorem State.emitDrive_draws (s : State) (l : Line) : (s.emitDrive l).draws = s.draws := rfl
@[simp] theorem State.emitDrive_pending (s : State) (l : Line) : (s.emitDrive l).pending = s.pending := rfl
@[simp] theorem State.emitDrive_replies (s : State) (l : Line) : (s.emitDrive l).replies = s.replies := rfl

/-! ## s.wait n -/

@[simp] theorem State.wait_clockDir (s : State) (n : Nat) : (s.wait n).clockDir = s.clockDir := rfl
@[simp] theorem State.wait_clockLvl (s : State) (n : Nat) : (s.wait n).clockLvl = s.clockLvl := rfl
@[simp] theorem State.wait_dataDir (s : State) (n : Nat) : (s.wait n).dataDir = s.dataDir := rfl
@[simp] theorem State.wait_dataLvl (s : State) (n : Nat) : (s.wait n).dataLvl = s.dataLvl := rfl
@[simp] theorem State.wait_bus (s : State) (n : Nat) : (s.wait n).bus = s.bus := rfl
@[simp] theorem State.wait_frame (s : State) (n : Nat) : (s.wait n).frame = s.frame := rfl
@[simp] theorem State.wait_now (s : State) (n : Nat) : (s.wait n).now = s.now + n := rfl
@[simp] theorem State.wait_trace (s : State) (n : Nat) : (s.wait n).trace = s.trace := rfl
@[simp] theorem State.wait_cmd (s : State) (n : Nat) : (s.wait n).cmd = s.cmd := rfl
@[simp] theorem State.wait_nack (s : State) (n : Nat) : (s.wait n).nack = s.nack := rfl
@[simp] theorem State.wait_fail (s : State) (n : Nat) : (s.wait n).fail = s.fail := rfl
@[simp] theorem State.wait_fault (s : State) (n : Nat) : (s.wait n).fault = s.fault := rfl
@[simp] theorem State.wait_faultCode (s : State) (n : Nat) : (s.wait n).faultCode = s.faultCode := rfl
@[simp] theorem State.wait_faultCmd (s : State) (n : Nat) : (s.wait n).faultCmd = s.faultCmd := rfl
@[simp] theorem State.wait_result0 (s : State) (n : Nat) : (s.wait n).result0 = s.result0 := rfl
@[simp] theorem State.wait_result1 (s : State) (n : Nat) : (s.wait n).result1 = s.result1 := rfl
@[simp] theorem State.wait_rbuf (s : State) (n : Nat) : (s.wait n).rbuf = s.rbuf := rfl
@[simp] theorem State.wait_params (s : State) (n : Nat) : (s.wait n).params = s.params := rfl
@[simp] theorem State.wait_env (s : State) (n : Nat) : (s.wait n).env = s.env := rfl
@[simp] theorem State.wait_draws (s : State) (n : Nat) : (s.wait n).draws = s.draws := rfl
@[simp] theorem State.wait_pending (s : State) (n : Nat) : (s.wait n).pending = s.pending := rfl
@[simp] theorem State.wait_replies (s : State) (n : Nat) : (s.wait n).replies = s.replies := rfl

/-! ## s.setBus b -/

@[simp] theorem State.setBus_clockDir (s : State) (b : BusState) : (s.setBus b).clockDir = s.clockDir := rfl
@[simp] theorem State.setBus_clockLvl (s : State) (b : BusState) : (s.setBus b).clockLvl = s.clockLvl := rfl
@[simp] theorem State.setBus_dataDir (s : State) (b : BusState) : (s.setBus b).dataDir = s.dataDir := rfl
@[simp] theorem State.setBus_dataLvl (s : State) (b : BusState) : (s.setBus b).dataLvl = s.dataLvl := rfl
@[simp] theorem State.setBus_bus (s : State) (b : BusState) : (s.setBus b).bus = b := rfl
@[simp] theorem State.setBus_frame (s : State) (b : BusState) : (s.setBus b).frame = s.frame := rfl
@[simp] theorem State.setBus_now (s : State) (b : BusState) : (s.setBus b).now = s.now := rfl
@[simp] theorem State.setBus_trace (s : State) (b : BusState) : (s.setBus b).trace = s.trace := rfl
@[simp] theorem State.setBus_cmd (s : State) (b : BusState) : (s.setBus b).cmd = s.cmd := rfl
@[simp] theorem State.setBus_nack (s : State) (b : BusState) : (s.setBus b).nack = s.nack := rfl
@[simp] theorem State.setBus_fail (s : State) (b : BusState) : (s.setBus b).fail = s.fail := rfl
@[simp] theorem State.setBus_fault (s : State) (b : BusState) : (s.setBus b).fault = s.fault := rfl
@[simp] theorem State.setBus_faultCode (s : State) (b : BusState) : (s.setBus b).faultCode = s.faultCode := rfl
@[simp] theorem State.setBus_faultCmd (s : State) (b : BusState) : (s.setBus b).faultCmd = s.faultCmd := rfl
@[simp] theorem State.setBus_result0 (s : State) (b : BusState) : (s.setBus b).result0 = s.result0 := rfl
@[simp] theorem State.setBus_result1 (s : State) (b : BusState) : (s.setBus b).result1 = s.result1 := rfl
@[simp] theorem State.setBus_rbuf (s : State) (b : BusState) : (s.setBus b).rbuf = s.rbuf := rfl
@[simp] theorem State.setBus_params (s : State) (b : BusState) : (s.setBus b).params = s.params := rfl
@[simp] theorem State.setBus_env (s : State) (b : BusState) : (s.setBus b).env = s.env := rfl
@[simp] theorem State.setBus_draws (s : State) (b : BusState) : (s.setBus b).draws = s.draws := rfl
@[simp] theorem State.setBus_pending (s : State) (b : BusState) : (s.setBus b).pending = s.pending := rfl
@[simp] theorem State.setBus_replies (s : State) (b : BusState) : (s.setBus b).replies = s.replies := rfl

/-! ## s.advanceFrame -/

@[simp] theorem State.advanceFrame_clockDir (s : State) : (s.advanceFrame).clockDir = s.clockDir := rfl
@[simp] theorem State.advanceFrame_clockLvl (s : State) : (s.advanceFrame).clockLvl = s.clockLvl := rfl
@[simp] theorem State.advanceFrame_dataDir (s : State) : (s.advanceFrame).dataDir = s.dataDir := rfl
@[simp] theorem State.advanceFrame_dataLvl (s : State) : (s.advanceFrame).dataLvl = s.dataLvl := rfl
@[simp] theorem State.advanceFrame_bus (s : State) : (s.advanceFrame).bus = s.bus := rfl
@[simp] theorem State.advanceFrame_frame (s : State) : (s.advanceFrame).frame = s.frame + 1 := rfl
@[simp] theorem State.advanceFrame_now (s : State) : (s.advanceFrame).now = s.now := rfl
@[simp] theorem State.advanceFrame_trace (s : State) : (s.advanceFrame).trace = s.trace := rfl
@[simp] theorem State.advanceFrame_cmd (s : State) : (s.advanceFrame).cmd = s.cmd := rfl
@[simp] theorem State.advanceFrame_nack (s : State) : (s.advanceFrame).nack = s.nack := rfl
@[simp] theorem State.advanceFrame_fail (s : State) : (s.advanceFrame).fail = s.fail := rfl
@[simp] theorem State.advanceFrame_fault (s : State) : (s.advanceFrame).fault = s.fault := rfl
@[simp] theorem State.advanceFrame_faultCode (s : State) : (s.advanceFrame).faultCode = s.faultCode := rfl
@[simp] theorem State.advanceFrame_faultCmd (s : State) : (s.advanceFrame).faultCmd = s.faultCmd := rfl
@[simp] theorem State.advanceFrame_result0 (s : State) : (s.advanceFrame).result0 = s.result0 := rfl
@[simp] theorem State.advanceFrame_result1 (s : State) : (s.advanceFrame).result1 = s.result1 := rfl
@[simp] theorem State.advanceFrame_rbuf (s : State) : (s.advanceFrame).rbuf = s.rbuf := rfl
@[simp] theorem State.advanceFrame_params (s : State) : (s.advanceFrame).params = s.params := rfl
@[simp] theorem State.advanceFrame_env (s : State) : (s.advanceFrame).env = s.env := rfl
@[simp] theorem State.advanceFrame_draws (s : State) : (s.advanceFrame).draws = s.draws := rfl
@[simp] theorem State.advanceFrame_pending (s : State) : (s.advanceFrame).pending = s.pending := rfl
@[simp] theorem State.advanceFrame_replies (s : State) : (s.advanceFrame).replies = s.replies := rfl

/-! ## s.clearFrame -/

@[simp] theorem State.clearFrame_clockDir (s : State) : (s.clearFrame).clockDir = s.clockDir := rfl
@[simp] theorem State.clearFrame_clockLvl (s : State) : (s.clearFrame).clockLvl = s.clockLvl := rfl
@[simp] theorem State.clearFrame_dataDir (s : State) : (s.clearFrame).dataDir = s.dataDir := rfl
@[simp] theorem State.clearFrame_dataLvl (s : State) : (s.clearFrame).dataLvl = s.dataLvl := rfl
@[simp] theorem State.clearFrame_bus (s : State) : (s.clearFrame).bus = s.bus := rfl
@[simp] theorem State.clearFrame_frame (s : State) : (s.clearFrame).frame = 0 := rfl
@[simp] theorem State.clearFrame_now (s : State) : (s.clearFrame).now = s.now := rfl
@[simp] theorem State.clearFrame_trace (s : State) : (s.clearFrame).trace = s.trace := rfl
@[simp] theorem State.clearFrame_cmd (s : State) : (s.clearFrame).cmd = s.cmd := rfl
@[simp] theorem State.clearFrame_nack (s : State) : (s.clearFrame).nack = s.nack := rfl
@[simp] theorem State.clearFrame_fail (s : State) : (s.clearFrame).fail = s.fail := rfl
@[simp] theorem State.clearFrame_fault (s : State) : (s.clearFrame).fault = s.fault := rfl
@[simp] theorem State.clearFrame_faultCode (s : State) : (s.clearFrame).faultCode = s.faultCode := rfl
@[simp] theorem State.clearFrame_faultCmd (s : State) : (s.clearFrame).faultCmd = s.faultCmd := rfl
@[simp] theorem State.clearFrame_result0 (s : State) : (s.clearFrame).result0 = s.result0 := rfl
@[simp] theorem State.clearFrame_result1 (s : State) : (s.clearFrame).result1 = s.result1 := rfl
@[simp] theorem State.clearFrame_rbuf (s : State) : (s.clearFrame).rbuf = s.rbuf := rfl
@[simp] theorem State.clearFrame_params (s : State) : (s.clearFrame).params = s.params := rfl
@[simp] theorem State.clearFrame_env (s : State) : (s.clearFrame).env = s.env := rfl
@[simp] theorem State.clearFrame_draws (s : State) : (s.clearFrame).draws = s.draws := rfl
@[simp] theorem State.clearFrame_pending (s : State) : (s.clearFrame).pending = s.pending := rfl
@[simp] theorem State.clearFrame_replies (s : State) : (s.clearFrame).replies = s.replies := rfl

/-! ## s.setNack b -/

@[simp] theorem State.setNack_clockDir (s : State) (b : Bool) : (s.setNack b).clockDir = s.clockDir := rfl
@[simp] theorem State.setNack_clockLvl (s : State) (b : Bool) : (s.setNack b).clockLvl = s.clockLvl := rfl
@[simp] theorem State.setNack_dataDir (s : State) (b : Bool) : (s.setNack b).dataDir = s.dataDir := rfl
@[simp] theorem State.setNack_dataLvl (s : State) (b : Bool) : (s.setNack b).dataLvl = s.dataLvl := rfl
@[simp] theorem State.setNack_bus (s : State) (b : Bool) : (s.setNack b).bus = s.bus := rfl
@[simp] theorem State.setNack_frame (s : State) (b : Bool) : (s.setNack b).frame = s.frame := rfl
@[simp] theorem State.setNack_now (s : State) (b : Bool) : (s.setNack b).now = s.now := rfl
@[simp] theorem State.setNack_trace (s : State) (b : Bool) : (s.setNack b).trace = s.trace := rfl
@[simp] theorem State.setNack_cmd (s : State) (b : Bool) : (s.setNack b).cmd = s.cmd := rfl
@[simp] theorem State.setNack_nack (s : State) (b : Bool) : (s.setNack b).nack = b := rfl
@[simp] theorem State.setNack_fail (s : State) (b : Bool) : (s.setNack b).fail = s.fail := rfl
@[simp] theorem State.setNack_fault (s : State) (b : Bool) : (s.setNack b).fault = s.fault := rfl
@[simp] theorem State.setNack_faultCode (s : State) (b : Bool) : (s.setNack b).faultCode = s.faultCode := rfl
@[simp] theorem State.setNack_faultCmd (s : State) (b : Bool) : (s.setNack b).faultCmd = s.faultCmd := rfl
@[simp] theorem State.setNack_result0 (s : State) (b : Bool) : (s.setNack b).result0 = s.result0 := rfl
@[simp] theorem State.setNack_result1 (s : State) (b : Bool) : (s.setNack b).result1 = s.result1 := rfl
@[simp] theorem State.setNack_rbuf (s : State) (b : Bool) : (s.setNack b).rbuf = s.rbuf := rfl
@[simp] theorem State.setNack_params (s : State) (b : Bool) : (s.setNack b).params = s.params := rfl
@[simp] theorem State.setNack_env (s : State) (b : Bool) : (s.setNack b).env = s.env := rfl
@[simp] theorem State.setNack_draws (s : State) (b : Bool) : (s.setNack b).draws = s.draws := rfl
@[simp] theorem State.setNack_pending (s : State) (b : Bool) : (s.setNack b).pending = s.pending := rfl
@[simp] theorem State.setNack_replies (s : State) (b : Bool) : (s.setNack b).replies = s.replies := rfl

/-! ## s.setFail b -/

@[simp] theorem State.setFail_clockDir (s : State) (b : Bool) : (s.setFail b).clockDir = s.clockDir := rfl
@[simp] theorem State.setFail_clockLvl (s : State) (b : Bool) : (s.setFail b).clockLvl = s.clockLvl := rfl
@[simp] theorem State.setFail_dataDir (s : State) (b : Bool) : (s.setFail b).dataDir = s.dataDir := rfl
@[simp] theorem State.setFail_dataLvl (s : State) (b : Bool) : (s.setFail b).dataLvl = s.dataLvl := rfl
@[simp] theorem State.setFail_bus (s : State) (b : Bool) : (s.setFail b).bus = s.bus := rfl
@[simp] theorem State.setFail_frame (s : State) (b : Bool) : (s.setFail b).frame = s.frame := rfl
@[simp] theorem State.setFail_now (s : State) (b : Bool) : (s.setFail b).now = s.now := rfl
@[simp] theorem State.setFail_trace (s : State) (b : Bool) : (s.setFail b).trace = s.trace := rfl
@[simp] theorem State.setFail_cmd (s : State) (b : Bool) : (s.setFail b).cmd = s.cmd := rfl
@[simp] theorem State.setFail_nack (s : State) (b : Bool) : (s.setFail b).nack = s.nack := rfl
@[simp] theorem State.setFail_fail (s : State) (b : Bool) : (s.setFail b).fail = b := rfl
@[simp] theorem State.setFail_fault (s : State) (b : Bool) : (s.setFail b).fault = s.fault := rfl
@[simp] theorem State.setFail_faultCode (s : State) (b : Bool) : (s.setFail b).faultCode = s.faultCode := rfl
@[simp] theorem State.setFail_faultCmd (s : State) (b : Bool) : (s.setFail b).faultCmd = s.faultCmd := rfl
@[simp] theorem State.setFail_result0 (s : State) (b : Bool) : (s.setFail b).result0 = s.result0 := rfl
@[simp] theorem State.setFail_result1 (s : State) (b : Bool) : (s.setFail b).result1 = s.result1 := rfl
@[simp] theorem State.setFail_rbuf (s : State) (b : Bool) : (s.setFail b).rbuf = s.rbuf := rfl
@[simp] theorem State.setFail_params (s : State) (b : Bool) : (s.setFail b).params = s.params := rfl
@[simp] theorem State.setFail_env (s : State) (b : Bool) : (s.setFail b).env = s.env := rfl
@[simp] theorem State.setFail_draws (s : State) (b : Bool) : (s.setFail b).draws = s.draws := rfl
@[simp] theorem State.setFail_pending (s : State) (b : Bool) : (s.setFail b).pending = s.pending := rfl
@[simp] theorem State.setFail_replies (s : State) (b : Bool) : (s.setFail b).replies = s.replies := rfl

/-! ## s.setResult0 v -/

@[simp] theorem State.setResult0_clockDir (s : State) (v : Byte) : (s.setResult0 v).clockDir = s.clockDir := rfl
@[simp] theorem State.setResult0_clockLvl (s : State) (v : Byte) : (s.setResult0 v).clockLvl = s.clockLvl := rfl
@[simp] theorem State.setResult0_dataDir (s : State) (v : Byte) : (s.setResult0 v).dataDir = s.dataDir := rfl
@[simp] theorem State.setResult0_dataLvl (s : State) (v : Byte) : (s.setResult0 v).dataLvl = s.dataLvl := rfl
@[simp] theorem State.setResult0_bus (s : State) (v : Byte) : (s.setResult0 v).bus = s.bus := rfl
@[simp] theorem State.setResult0_frame (s : State) (v : Byte) : (s.setResult0 v).frame = s.frame := rfl
@[simp] theorem State.setResult0_now (s : State) (v : Byte) : (s.setResult0 v).now = s.now := rfl
@[simp] theorem State.setResult0_trace (s : State) (v : Byte) : (s.setResult0 v).trace = s.trace := rfl
@[simp] theorem State.setResult0_cmd (s : State) (v : Byte) : (s.setResult0 v).cmd = s.cmd := rfl
@[simp] theorem State.setResult0_nack (s : State) (v : Byte) : (s.setResult0 v).nack = s.nack := rfl
@[simp] theorem State.setResult0_fail (s : State) (v : Byte) : (s.setResult0 v).fail = s.fail := rfl
@[simp] theorem State.setResult0_fault (s : State) (v : Byte) : (s.setResult0 v).fault = s.fault := rfl
@[simp] theorem State.setResult0_faultCode (s : State) (v : Byte) : (s.setResult0 v).faultCode = s.faultCode := rfl
@[simp] theorem State.setResult0_faultCmd (s : State) (v : Byte) : (s.setResult0 v).faultCmd = s.faultCmd := rfl
@[simp] theorem State.setResult0_result0 (s : State) (v : Byte) : (s.setResult0 v).result0 = v := rfl
@[simp] theorem State.setResult0_result1 (s : State) (v : Byte) : (s.setResult0 v).result1 = s.result1 := rfl
@[simp] theorem State.setResult0_rbuf (s : State) (v : Byte) : (s.setResult0 v).rbuf = s.rbuf := rfl
@[simp] theorem State.setResult0_params (s : State) (v : Byte) : (s.setResult0 v).params = s.params := rfl
@[simp] theorem State.setResult0_env (s : State) (v : Byte) : (s.setResult0 v).env = s.env := rfl
@[simp] theorem State.setResult0_draws (s : State) (v : Byte) : (s.setResult0 v).draws = s.draws := rfl
@[simp] theorem State.setResult0_pending (s : State) (v : Byte) : (s.setResult0 v).pending = s.pending := rfl
@[simp] theorem State.setResult0_replies (s : State) (v : Byte) : (s.setResult0 v).replies = s.replies := rfl

/-! ## s.setResult1 v -/

@[simp] theorem State.setResult1_clockDir (s : State) (v : Byte) : (s.setResult1 v).clockDir = s.clockDir := rfl
@[simp] theorem State.setResult1_clockLvl (s : State) (v : Byte) : (s.setResult1 v).clockLvl = s.clockLvl := rfl
@[simp] theorem State.setResult1_dataDir (s : State) (v : Byte) : (s.setResult1 v).dataDir = s.dataDir := rfl
@[simp] theorem State.setResult1_dataLvl (s : State) (v : Byte) : (s.setResult1 v).dataLvl = s.dataLvl := rfl
@[simp] theorem State.setResult1_bus (s : State) (v : Byte) : (s.setResult1 v).bus = s.bus := rfl
@[simp] theorem State.setResult1_frame (s : State) (v : Byte) : (s.setResult1 v).frame = s.frame := rfl
@[simp] theorem State.setResult1_now (s : State) (v : Byte) : (s.setResult1 v).now = s.now := rfl
@[simp] theorem State.setResult1_trace (s : State) (v : Byte) : (s.setResult1 v).trace = s.trace := rfl
@[simp] theorem State.setResult1_cmd (s : State) (v : Byte) : (s.setResult1 v).cmd = s.cmd := rfl
@[simp] theorem State.setResult1_nack (s : State) (v : Byte) : (s.setResult1 v).nack = s.nack := rfl
@[simp] theorem State.setResult1_fail (s : State) (v : Byte) : (s.setResult1 v).fail = s.fail := rfl
@[simp] theorem State.setResult1_fault (s : State) (v : Byte) : (s.setResult1 v).fault = s.fault := rfl
@[simp] theorem State.setResult1_faultCode (s : State) (v : Byte) : (s.setResult1 v).faultCode = s.faultCode := rfl
@[simp] theorem State.setResult1_faultCmd (s : State) (v : Byte) : (s.setResult1 v).faultCmd = s.faultCmd := rfl
@[simp] theorem State.setResult1_result0 (s : State) (v : Byte) : (s.setResult1 v).result0 = s.result0 := rfl
@[simp] theorem State.setResult1_result1 (s : State) (v : Byte) : (s.setResult1 v).result1 = v := rfl
@[simp] theorem State.setResult1_rbuf (s : State) (v : Byte) : (s.setResult1 v).rbuf = s.rbuf := rfl
@[simp] theorem State.setResult1_params (s : State) (v : Byte) : (s.setResult1 v).params = s.params := rfl
@[simp] theorem State.setResult1_env (s : State) (v : Byte) : (s.setResult1 v).env = s.env := rfl
@[simp] theorem State.setResult1_draws (s : State) (v : Byte) : (s.setResult1 v).draws = s.draws := rfl
@[simp] theorem State.setResult1_pending (s : State) (v : Byte) : (s.setResult1 v).pending = s.pending := rfl
@[simp] theorem State.setResult1_replies (s : State) (v : Byte) : (s.setResult1 v).replies = s.replies := rfl

/-! ## s.storeBlock bytes -/

@[simp] theorem State.storeBlock_clockDir (s : State) (bytes : List Byte) : (s.storeBlock bytes).clockDir = s.clockDir := rfl
@[simp] theorem State.storeBlock_clockLvl (s : State) (bytes : List Byte) : (s.storeBlock bytes).clockLvl = s.clockLvl := rfl
@[simp] theorem State.storeBlock_dataDir (s : State) (bytes : List Byte) : (s.storeBlock bytes).dataDir = s.dataDir := rfl
@[simp] theorem State.storeBlock_dataLvl (s : State) (bytes : List Byte) : (s.storeBlock bytes).dataLvl = s.dataLvl := rfl
@[simp] theorem State.storeBlock_bus (s : State) (bytes : List Byte) : (s.storeBlock bytes).bus = s.bus := rfl
@[simp] theorem State.storeBlock_frame (s : State) (bytes : List Byte) : (s.storeBlock bytes).frame = s.frame := rfl
@[simp] theorem State.storeBlock_now (s : State) (bytes : List Byte) : (s.storeBlock bytes).now = s.now := rfl
@[simp] theorem State.storeBlock_trace (s : State) (bytes : List Byte) : (s.storeBlock bytes).trace = s.trace := rfl
@[simp] theorem State.storeBlock_cmd (s : State) (bytes : List Byte) : (s.storeBlock bytes).cmd = s.cmd := rfl
@[simp] theorem State.storeBlock_nack (s : State) (bytes : List Byte) : (s.storeBlock bytes).nack = s.nack := rfl
@[simp] theorem State.storeBlock_fail (s : State) (bytes : List Byte) : (s.storeBlock bytes).fail = s.fail := rfl
@[simp] theorem State.storeBlock_fault (s : State) (bytes : List Byte) : (s.storeBlock bytes).fault = s.fault := rfl
@[simp] theorem State.storeBlock_faultCode (s : State) (bytes : List Byte) : (s.storeBlock bytes).faultCode = s.faultCode := rfl
@[simp] theorem State.storeBlock_faultCmd (s : State) (bytes : List Byte) : (s.storeBlock bytes).faultCmd = s.faultCmd := rfl
@[simp] theorem State.storeBlock_result0 (s : State) (bytes : List Byte) : (s.storeBlock bytes).result0 = s.result0 := rfl
@[simp] theorem State.storeBlock_result1 (s : State) (bytes : List Byte) : (s.storeBlock bytes).result1 = s.result1 := rfl
@[simp] theorem State.storeBlock_rbuf (s : State) (bytes : List Byte) : (s.storeBlock bytes).rbuf = fillFrom 0 bytes s.rbuf := rfl
@[simp] theorem State.storeBlock_params (s : State) (bytes : List Byte) : (s.storeBlock bytes).params = s.params := rfl
@[simp] theorem State.storeBlock_env (s : State) (bytes : List Byte) : (s.storeBlock bytes).env = s.env := rfl
@[simp] theorem State.storeBlock_draws (s : State) (bytes : List Byte) : (s.storeBlock bytes).draws = s.draws := rfl
@[simp] theorem State.storeBlock_pending (s : State) (bytes : List Byte) : (s.storeBlock bytes).pending = s.pending := rfl
@[simp] theorem State.storeBlock_replies (s : State) (bytes : List Byte) : (s.storeBlock bytes).replies = s.replies := rfl

/-! ## s.setCmd w -/

@[simp] theorem State.setCmd_clockDir (s : State) (w : CmdWord) : (s.setCmd w).clockDir = s.clockDir := rfl
@[simp] theorem State.setCmd_clockLvl (s : State) (w : CmdWord) : (s.setCmd w).clockLvl = s.clockLvl := rfl
@[simp] theorem State.setCmd_dataDir (s : State) (w : CmdWord) : (s.setCmd w).dataDir = s.dataDir := rfl
@[simp] theorem State.setCmd_dataLvl (s : State) (w : CmdWord) : (s.setCmd w).dataLvl = s.dataLvl := rfl
@[simp] theorem State.setCmd_bus (s : State) (w : CmdWord) : (s.setCmd w).bus = s.bus := rfl
@[simp] theorem State.setCmd_frame (s : State) (w : CmdWord) : (s.setCmd w).frame = s.frame := rfl
@[simp] theorem State.setCmd_now (s : State) (w : CmdWord) : (s.setCmd w).now = s.now := rfl
@[simp] theorem State.setCmd_trace (s : State) (w : CmdWord) : (s.setCmd w).trace = s.trace := rfl
@[simp] theorem State.setCmd_cmd (s : State) (w : CmdWord) : (s.setCmd w).cmd = w := rfl
@[simp] theorem State.setCmd_nack (s : State) (w : CmdWord) : (s.setCmd w).nack = s.nack := rfl
@[simp] theorem State.setCmd_fail (s : State) (w : CmdWord) : (s.setCmd w).fail = s.fail := rfl
@[simp] theorem State.setCmd_fault (s : State) (w : CmdWord) : (s.setCmd w).fault = s.fault := rfl
@[simp] theorem State.setCmd_faultCode (s : State) (w : CmdWord) : (s.setCmd w).faultCode = s.faultCode := rfl
@[simp] theorem State.setCmd_faultCmd (s : State) (w : CmdWord) : (s.setCmd w).faultCmd = s.faultCmd := rfl
@[simp] theorem State.setCmd_result0 (s : State) (w : CmdWord) : (s.setCmd w).result0 = s.result0 := rfl
@[simp] theorem State.setCmd_result1 (s : State) (w : CmdWord) : (s.setCmd w).result1 = s.result1 := rfl
@[simp] theorem State.setCmd_rbuf (s : State) (w : CmdWord) : (s.setCmd w).rbuf = s.rbuf := rfl
@[simp] theorem State.setCmd_params (s : State) (w : CmdWord) : (s.setCmd w).params = s.params := rfl
@[simp] theorem State.setCmd_env (s : State) (w : CmdWord) : (s.setCmd w).env = s.env := rfl
@[simp] theorem State.setCmd_draws (s : State) (w : CmdWord) : (s.setCmd w).draws = s.draws := rfl
@[simp] theorem State.setCmd_pending (s : State) (w : CmdWord) : (s.setCmd w).pending = s.pending := rfl
@[simp] theorem State.setCmd_replies (s : State) (w : CmdWord) : (s.setCmd w).replies = s.replies := rfl

/-! ## s.afterDraws n -/

@[simp] theorem State.afterDraws_clockDir (s : State) (n : Nat) : (s.afterDraws n).clockDir = s.clockDir := rfl
@[simp] theorem State.afterDraws_clockLvl (s : State) (n : Nat) : (s.afterDraws n).clockLvl = s.clockLvl := rfl
@[simp] theorem State.afterDraws_dataDir (s : State) (n : Nat) : (s.afterDraws n).dataDir = s.dataDir := rfl
@[simp] theorem State.afterDraws_dataLvl (s : State) (n : Nat) : (s.afterDraws n).dataLvl = s.dataLvl := rfl
@[simp] theorem State.afterDraws_bus (s : State) (n : Nat) : (s.afterDraws n).bus = s.bus := rfl
@[simp] theorem State.afterDraws_frame (s : State) (n : Nat) : (s.afterDraws n).frame = s.frame := rfl
@[simp] theorem State.afterDraws_now (s : State) (n : Nat) : (s.afterDraws n).now = s.now := rfl
@[simp] theorem State.afterDraws_trace (s : State) (n : Nat) : (s.afterDraws n).trace = s.trace := rfl
@[simp] theorem State.afterDraws_cmd (s : State) (n : Nat) : (s.afterDraws n).cmd = s.cmd := rfl
@[simp] theorem State.afterDraws_nack (s : State) (n : Nat) : (s.afterDraws n).nack = s.nack := rfl
@[simp] theorem State.afterDraws_fail (s : State) (n : Nat) : (s.afterDraws n).fail = s.fail := rfl
@[simp] theorem State.afterDraws_fault (s : State) (n : Nat) : (s.afterDraws n).fault = s.fault := rfl
@[simp] theorem State.afterDraws_faultCode (s : State) (n : Nat) : (s.afterDraws n).faultCode = s.faultCode := rfl
@[simp] theorem State.afterDraws_faultCmd (s : State) (n : Nat) : (s.afterDraws n).faultCmd = s.faultCmd := rfl
@[simp] theorem State.afterDraws_result0 (s : State) (n : Nat) : (s.afterDraws n).result0 = s.result0 := rfl
@[simp] theorem State.afterDraws_result1 (s : State) (n : Nat) : (s.afterDraws n).result1 = s.result1 := rfl
@[simp] theorem State.afterDraws_rbuf (s : State) (n : Nat) : (s.afterDraws n).rbuf = s.rbuf := rfl
@[simp] theorem State.afterDraws_params (s : State) (n : Nat) : (s.afterDraws n).params = s.params := rfl
@[simp] theorem State.afterDraws_env (s : State) (n : Nat) : (s.afterDraws n).env = s.env.drop n := rfl
@[simp] theorem State.afterDraws_draws (s : State) (n : Nat) : (s.afterDraws n).draws = s.draws + n := rfl
@[simp] theorem State.afterDraws_pending (s : State) (n : Nat) : (s.afterDraws n).pending = s.pending := rfl
@[simp] theorem State.afterDraws_replies (s : State) (n : Nat) : (s.afterDraws n).replies = s.replies := rfl

/-! ## s.takeFault c -/

@[simp] theorem State.takeFault_clockDir (s : State) (c : FaultCode) : (s.takeFault c).clockDir = s.clockDir := rfl
@[simp] theorem State.takeFault_clockLvl (s : State) (c : FaultCode) : (s.takeFault c).clockLvl = s.clockLvl := rfl
@[simp] theorem State.takeFault_dataDir (s : State) (c : FaultCode) : (s.takeFault c).dataDir = s.dataDir := rfl
@[simp] theorem State.takeFault_dataLvl (s : State) (c : FaultCode) : (s.takeFault c).dataLvl = s.dataLvl := rfl
@[simp] theorem State.takeFault_bus (s : State) (c : FaultCode) : (s.takeFault c).bus = s.bus := rfl
@[simp] theorem State.takeFault_frame (s : State) (c : FaultCode) : (s.takeFault c).frame = s.frame := rfl
@[simp] theorem State.takeFault_now (s : State) (c : FaultCode) : (s.takeFault c).now = s.now := rfl
@[simp] theorem State.takeFault_trace (s : State) (c : FaultCode) : (s.takeFault c).trace = s.trace := rfl
@[simp] theorem State.takeFault_cmd (s : State) (c : FaultCode) : (s.takeFault c).cmd = s.cmd := rfl
@[simp] theorem State.takeFault_nack (s : State) (c : FaultCode) : (s.takeFault c).nack = s.nack := rfl
@[simp] theorem State.takeFault_fail (s : State) (c : FaultCode) : (s.takeFault c).fail = s.fail := rfl
@[simp] theorem State.takeFault_fault (s : State) (c : FaultCode) : (s.takeFault c).fault = true := rfl
@[simp] theorem State.takeFault_faultCode (s : State) (c : FaultCode) : (s.takeFault c).faultCode = c.code := rfl
@[simp] theorem State.takeFault_faultCmd (s : State) (c : FaultCode) : (s.takeFault c).faultCmd = s.cmd := rfl
@[simp] theorem State.takeFault_result0 (s : State) (c : FaultCode) : (s.takeFault c).result0 = s.result0 := rfl
@[simp] theorem State.takeFault_result1 (s : State) (c : FaultCode) : (s.takeFault c).result1 = s.result1 := rfl
@[simp] theorem State.takeFault_rbuf (s : State) (c : FaultCode) : (s.takeFault c).rbuf = s.rbuf := rfl
@[simp] theorem State.takeFault_params (s : State) (c : FaultCode) : (s.takeFault c).params = s.params := rfl
@[simp] theorem State.takeFault_env (s : State) (c : FaultCode) : (s.takeFault c).env = s.env := rfl
@[simp] theorem State.takeFault_draws (s : State) (c : FaultCode) : (s.takeFault c).draws = s.draws := rfl
@[simp] theorem State.takeFault_pending (s : State) (c : FaultCode) : (s.takeFault c).pending = s.pending := rfl
@[simp] theorem State.takeFault_replies (s : State) (c : FaultCode) : (s.takeFault c).replies = s.replies := rfl

/-! ## s.pushCommand w -/

@[simp] theorem State.pushCommand_clockDir (s : State) (w : CmdWord) : (s.pushCommand w).clockDir = s.clockDir := rfl
@[simp] theorem State.pushCommand_clockLvl (s : State) (w : CmdWord) : (s.pushCommand w).clockLvl = s.clockLvl := rfl
@[simp] theorem State.pushCommand_dataDir (s : State) (w : CmdWord) : (s.pushCommand w).dataDir = s.dataDir := rfl
@[simp] theorem State.pushCommand_dataLvl (s : State) (w : CmdWord) : (s.pushCommand w).dataLvl = s.dataLvl := rfl
@[simp] theorem State.pushCommand_bus (s : State) (w : CmdWord) : (s.pushCommand w).bus = s.bus := rfl
@[simp] theorem State.pushCommand_frame (s : State) (w : CmdWord) : (s.pushCommand w).frame = s.frame := rfl
@[simp] theorem State.pushCommand_now (s : State) (w : CmdWord) : (s.pushCommand w).now = s.now := rfl
@[simp] theorem State.pushCommand_trace (s : State) (w : CmdWord) : (s.pushCommand w).trace = s.trace := rfl
@[simp] theorem State.pushCommand_cmd (s : State) (w : CmdWord) : (s.pushCommand w).cmd = s.cmd := rfl
@[simp] theorem State.pushCommand_nack (s : State) (w : CmdWord) : (s.pushCommand w).nack = s.nack := rfl
@[simp] theorem State.pushCommand_fail (s : State) (w : CmdWord) : (s.pushCommand w).fail = s.fail := rfl
@[simp] theorem State.pushCommand_fault (s : State) (w : CmdWord) : (s.pushCommand w).fault = s.fault := rfl
@[simp] theorem State.pushCommand_faultCode (s : State) (w : CmdWord) : (s.pushCommand w).faultCode = s.faultCode := rfl
@[simp] theorem State.pushCommand_faultCmd (s : State) (w : CmdWord) : (s.pushCommand w).faultCmd = s.faultCmd := rfl
@[simp] theorem State.pushCommand_result0 (s : State) (w : CmdWord) : (s.pushCommand w).result0 = s.result0 := rfl
@[simp] theorem State.pushCommand_result1 (s : State) (w : CmdWord) : (s.pushCommand w).result1 = s.result1 := rfl
@[simp] theorem State.pushCommand_rbuf (s : State) (w : CmdWord) : (s.pushCommand w).rbuf = s.rbuf := rfl
@[simp] theorem State.pushCommand_params (s : State) (w : CmdWord) : (s.pushCommand w).params = s.params := rfl
@[simp] theorem State.pushCommand_env (s : State) (w : CmdWord) : (s.pushCommand w).env = s.env := rfl
@[simp] theorem State.pushCommand_draws (s : State) (w : CmdWord) : (s.pushCommand w).draws = s.draws := rfl
@[simp] theorem State.pushCommand_pending (s : State) (w : CmdWord) : (s.pushCommand w).pending = .write 0 2 w :: s.pending := rfl
@[simp] theorem State.pushCommand_replies (s : State) (w : CmdWord) : (s.pushCommand w).replies = s.replies := rfl

end Sys2Proof.Machine
end

