-- ==== Sys2Proof/Laws/Ops.lean ====
section
/-! SUPPORT. What each shared operation can do, said once: the run of a sequence, the Signal Driver primitives, and a
whole command. -/

namespace Sys2Proof.Machine

variable {α β : Type}

/-! ## Sequences -/

@[simp] theorem Cmd.pure_run (a : α) (s : State) : (pure a : Cmd α) s = .ok a s := rfl

theorem Cmd.bind_run (m : Cmd α) (f : α → Cmd β) (s : State) :
    (m >>= f) s = match m s with
      | .ok a t => f a t
      | .error c t => .error c t := by
  show EStateM.bind m f s = _
  unfold EStateM.bind
  cases m s <;> rfl

theorem Cmd.map_run (f : α → β) (m : Cmd α) (s : State) :
    (f <$> m) s = match m s with
      | .ok a t => .ok (f a) t
      | .error c t => .error c t := by
  show EStateM.map f m s = _
  unfold EStateM.map
  cases m s <;> rfl

/-- A statement that ends normally hands its value and its state to the rest. -/
theorem Cmd.bind_ok {m : Cmd α} {f : α → Cmd β} {s t : State} {a : α} (h : m s = .ok a t) : (m >>= f) s = f a t := by
  rw [Cmd.bind_run, h]

/-- The same, when the rest of the sequence is known. -/
theorem Cmd.bind_then {m : Cmd α} {f : α → Cmd β} {s t : State} {a : α} {r : EStateM.Result FaultCode State β}
    (h : m s = .ok a t) (hr : f a t = r) : (m >>= f) s = r := (Cmd.bind_ok h).trans hr

/-- A raised fault ends the sequence at once (R232). -/
theorem Cmd.bind_error {m : Cmd α} {f : α → Cmd β} {s t : State} {c : FaultCode} (h : m s = .error c t) :
    (m >>= f) s = .error c t := by
  rw [Cmd.bind_run, h]

@[simp] theorem update_run (f : State → State) (s : State) : update f s = .ok () (f s) := rfl

@[simp] theorem param_run (f : Params → α) (s : State) : param f s = .ok (f s.params) s := rfl

@[simp] theorem drvDelay_run (n : Nat) (s : State) : drvDelay n s = .ok () (s.wait n) := rfl

theorem raiseIf_pass {c : State → Prop} [DecidablePred c] {code : FaultCode} {s : State} (h : ¬ c s) :
    raiseIf c code s = .ok () s := if_neg h

theorem raiseIf_raise {c : State → Prop} [DecidablePred c] {code : FaultCode} {s : State} (h : c s) :
    raiseIf c code s = .error code s := if_pos h

/-! ## The primitives (R110 to R112) -/

theorem drvSetDir_clock (d : Dir) (s : State) :
    drvSetDir .clock d s = .ok () ((s.setDir .clock d).emitDrive .clock) := by
  simp [drvSetDir]

/-- DATA's direction may change while CLOCK is held LOW, and may always stay as it is. -/
theorem drvSetDir_data {d : Dir} {s : State} (h : d ≠ s.dataDir → s.clockHeldLow) :
    drvSetDir .data d s = .ok () ((s.setDir .data d).emitDrive .data) := by
  unfold drvSetDir
  rw [if_neg]
  rintro ⟨-, hd, hc⟩
  exact hc (h hd)

theorem drvSetDir_raise {d : Dir} {s : State} (hd : d ≠ s.dataDir) (hc : ¬ s.clockHeldLow) :
    drvSetDir .data d s = .error .dirChangeClockHigh s := if_pos ⟨rfl, hd, hc⟩

theorem drvSetLvl_output {l : Line} {v : Level} {s : State} (h : s.dir l = .output) :
    drvSetLvl l v s = .ok () ((s.setLvl l v).emitDrive l) := by
  simp [drvSetLvl, h]

theorem drvSetLvl_raise {l : Line} {v : Level} {s : State} (h : s.dir l = .input) :
    drvSetLvl l v s = .error .levelWhileInput s := by
  simp [drvSetLvl, h]

theorem drvRead_driven {l : Line} {s : State} (h : s.dir l = .output) :
    drvRead l s = .ok (s.lvl l) (s.emit (.sample s.now l (s.lvl l))) := by
  simp [drvRead, Cmd.bind_run, Cmd.map_run, observe, h]

theorem drvRead_released {l : Line} {s : State} (h : s.dir l = .input) :
    drvRead l s = .ok (s.drawAt 0 l) ((s.afterDraws 1).emit (.sample s.now l (s.drawAt 0 l))) := by
  simp [drvRead, Cmd.bind_run, Cmd.map_run, observe, h]

/-! ## The free draw (R27) -/

/-- The `k`-th draw after `n` draws is the draw `n + k` from before them. -/
theorem State.drawAt_afterDraws (s : State) (n k : Nat) (l : Line) :
    (s.afterDraws n).drawAt k l = s.drawAt (n + k) l := by
  simp [State.drawAt, Nat.add_assoc]

/-- Draws are counted: `n` and then `m` of them are `n + m`. -/
theorem State.afterDraws_afterDraws (s : State) (n m : Nat) :
    (s.afterDraws n).afterDraws m = s.afterDraws (n + m) := by
  simp [State.afterDraws, Nat.add_assoc]

/-! ## A whole command (R232) -/

theorem runCommand_ok {m : Cmd Unit} {s t : State} (h : m s = .ok () t) : runCommand m s = .next t := by
  simp [runCommand, h]

theorem runCommand_error {m : Cmd Unit} {s t : State} {c : FaultCode} (h : m s = .error c t) :
    runCommand m s = .next (t.takeFault c) := by
  simp [runCommand, h]

/-- A command ends in a next state: the one its last statement leaves, or the one a raised fault leaves. -/
theorem runCommand_cases (m : Cmd Unit) (s : State) :
    (∃ t, m s = .ok () t ∧ runCommand m s = .next t) ∨
      ∃ c t, m s = .error c t ∧ runCommand m s = .next (t.takeFault c) := by
  unfold runCommand
  cases h : m s with
  | ok _ t => exact .inl ⟨t, rfl, rfl⟩
  | error c t => exact .inr ⟨c, t, rfl, rfl⟩

end Sys2Proof.Machine
end

