-- ==== Sys2Proof/Laws/Checks.lean ====
section
/-! SUPPORT. The checks that stand before a command's effect: when each passes, with the state as it was, and what it
raises (R115, R116, R142, R143, R163, R200). -/

namespace Sys2Proof.Machine

theorem rawCheck_pass {s : State} (h : s.bus = .idle) : rawCheck s = .ok () s := raiseIf_pass (by simp [h])

theorem rawCheck_raise {s : State} (h : s.bus = .addressed) : rawCheck s = .error .rawInTransaction s := raiseIf_raise h

theorem openCheck_pass {s : State} (h : s.bus = .addressed) : openCheck s = .ok () s := raiseIf_pass (by simp [h])

theorem openCheck_raise {s : State} (h : s.bus = .idle) : openCheck s = .error .noTransaction s := raiseIf_raise h

theorem seqCheck_pass {s : State} (h : s.bus = .idle) : seqCheck s = .ok () s := raiseIf_pass (by simp [h])

theorem seqCheck_raise {s : State} (h : s.bus = .addressed) : seqCheck s = .error .transactionOpen s := raiseIf_raise h

theorem midByteCheck_pass {s : State} (h : s.frame = 0) : midByteCheck s = .ok () s := raiseIf_pass (by simp [h])

theorem midByteCheck_raise {s : State} (h : s.frame ≠ 0) : midByteCheck s = .error .frameError s := raiseIf_raise h

theorem spuriousCheck_pass {l : Line} {v : Level} {s : State}
    (h : l = .data → s.dataDir = .output → v ≠ s.dataLvl → s.clockHeldLow) : spuriousCheck l v s = .ok () s :=
  raiseIf_pass fun ⟨hl, hd, hv, hc⟩ => hc (h hl hd hv)

theorem spuriousCheck_raise {v : Level} {s : State} (hd : s.dataDir = .output) (hv : v ≠ s.dataLvl)
    (hc : ¬ s.clockHeldLow) : spuriousCheck .data v s = .error .spuriousCondition s := raiseIf_raise ⟨rfl, hd, hv, hc⟩

/-- In IDLE the whole family raises NO_TRANSACTION, whatever FRAME is (R163, R234). -/
theorem framerCheck_idle {kind : SlotKind} {s : State} (h : s.bus = .idle) :
    framerCheck kind s = .error .noTransaction s := Cmd.bind_error (openCheck_raise h)

theorem framerCheck_pass {kind : SlotKind} {s : State} (h : s.bus = .addressed) (hb : kind = .byte → s.frame = 0)
    (ha : kind = .ack → s.frame = 8) : framerCheck kind s = .ok () s := by
  rw [framerCheck, Cmd.bind_ok (openCheck_pass h)]
  refine raiseIf_pass ?_
  rintro (⟨hk, hf⟩ | ⟨hk, hf⟩)
  · exact hf (hb hk)
  · exact hf (ha hk)

theorem framerCheck_byte {s : State} (h : s.bus = .addressed) (hf : s.frame ≠ 0) :
    framerCheck .byte s = .error .frameError s := by
  rw [framerCheck, Cmd.bind_ok (openCheck_pass h)]
  exact raiseIf_raise (.inl ⟨rfl, hf⟩)

theorem framerCheck_ack {s : State} (h : s.bus = .addressed) (hf : s.frame ≠ 8) :
    framerCheck .ack s = .error .frameError s := by
  rw [framerCheck, Cmd.bind_ok (openCheck_pass h)]
  exact raiseIf_raise (.inr ⟨rfl, hf⟩)

end Sys2Proof.Machine
end

