-- ==== Sys2Proof/Laws/Decode.lean ====
section
/-! SUPPORT. The opcode map has no overlap, so a word that selects a row decodes to it (R84). -/

namespace Sys2Proof

/-- Two rows differ in a bit that both of them fix. -/
def OpRow.apart (a b : OpRow) : Bool := (a.pat ^^^ b.pat) &&& (a.mask &&& b.mask) != 0#16

theorem opcodeTable_apart : opcodeTable.Pairwise fun a b => a.apart b = true := by decide

/-- Rows that are apart are not both selected. -/
theorem OpRow.apart_selects {a b : OpRow} {w : CmdWord} (h : a.apart b = true) (ha : a.selects w = true) :
    b.selects w = false := by
  cases hb : b.selects w with
  | false => rfl
  | true =>
    simp only [OpRow.apart, OpRow.selects, bne_iff_ne, ne_eq, beq_iff_eq] at h ha hb
    refine absurd ?_ h
    rw [← ha, ← hb]
    ext i
    simp only [BitVec.getElem_and, BitVec.getElem_xor, BitVec.getElem_zero]
    cases w[i] <;> cases a.mask[i] <;> cases b.mask[i] <;> rfl

/-- The search finds the row that selects the word, wherever it stands. -/
theorem decodeRows_of_mem {w : CmdWord} {row : OpRow} {rows : List OpRow}
    (hp : rows.Pairwise fun a b => a.apart b = true) (hm : row ∈ rows) (hs : row.selects w = true) :
    decodeRows w rows = .ok (row.build w) := by
  induction rows with
  | nil => cases hm
  | cons r rest ih =>
    rw [List.pairwise_cons] at hp
    unfold decodeRows
    cases hr : r.selects w with
    | true =>
      rw [List.mem_cons] at hm
      obtain rfl | hm := hm
      · rfl
      · exact absurd hs (by simp [OpRow.apart_selects (hp.1 row hm) hr])
    | false =>
      rw [List.mem_cons] at hm
      obtain rfl | hm := hm
      · simp [hr] at hs
      · simpa using ih hp.2 hm

/-- A word decodes to the row it selects (R84, R87). -/
theorem decode_of_row {w : CmdWord} {row : OpRow} (hm : row ∈ opcodeTable) (hs : row.selects w = true) :
    decode w = .ok (row.build w) := decodeRows_of_mem opcodeTable_apart hm hs

/-- A word that decodes has selected a row, and one that does not has selected none (R86, R87). -/
theorem decodeRows_cases (w : CmdWord) (rows : List OpRow) :
    (∃ row ∈ rows, row.selects w = true ∧ decodeRows w rows = .ok (row.build w)) ∨
      ((∀ row ∈ rows, row.selects w = false) ∧ decodeRows w rows = .error (illegalKind w)) := by
  induction rows with
  | nil => exact .inr ⟨by simp, rfl⟩
  | cons r rest ih =>
    cases hr : r.selects w with
    | true => exact .inl ⟨r, by simp, hr, by simp [decodeRows, hr]⟩
    | false =>
      obtain ⟨row, hm, hs, hd⟩ | ⟨hn, hd⟩ := ih
      · exact .inl ⟨row, by simp [hm], hs, by simp [decodeRows, hr, hd]⟩
      · exact .inr ⟨by simpa [hr] using hn, by simp [decodeRows, hr, hd]⟩

end Sys2Proof
end

