-- ==== Sys2Proof/Laws/Slots.lean ====
section
/-! SUPPORT. What the engine's sequences do, said once in closed form: one condition or bit slot, a byte with or without
its acknowledgement, a list of bytes, a block. -/

namespace Sys2Proof.Machine

/-- The state after one stretch of the engine's waveform, begun with CLOCK driven. -/
def State.afterSlot (s : State) (x : Slot) : State :=
  { s with
    clockLvl := match x with | .driven _ => endClock s.params | _ => .high
    dataDir := match x with | .driven _ => endDir s.params | .sampled _ => .input | _ => .output
    dataLvl := slotLevel s.dataLvl x
    frame := match x with | .driven _ | .sampled _ => s.frame + 1 | _ => s.frame
    now := s.now + slotTime s.params x
    trace := s.trace ++ slotEvents s.params s.now s.dataLvl x }

/-- The state after a row of stretches. -/
def State.afterSlots (s : State) (xs : List Slot) : State := xs.foldl State.afterSlot s

@[simp] theorem State.afterSlots_nil (s : State) : s.afterSlots [] = s := rfl

@[simp] theorem State.afterSlots_cons (s : State) (x : Slot) (xs : List Slot) :
    s.afterSlots (x :: xs) = (s.afterSlot x).afterSlots xs := rfl

theorem State.afterSlots_append (s : State) (xs ys : List Slot) :
    s.afterSlots (xs ++ ys) = (s.afterSlots xs).afterSlots ys := List.foldl_append ..

/-- A row of stretches writes the waveform of the row into TRACE. -/
theorem State.afterSlots_trace (s : State) (xs : List Slot) :
    (s.afterSlots xs).trace = s.trace ++ waveform s.params s.now s.dataLvl xs := by
  induction xs generalizing s with
  | nil => simp [waveform]
  | cons x xs ih => rw [State.afterSlots_cons, ih]; simp [waveform, State.afterSlot]

/-- A row of stretches takes the sum of their times. -/
theorem State.afterSlots_now (s : State) (xs : List Slot) :
    (s.afterSlots xs).now = s.now + (xs.map (slotTime s.params)).sum := by
  induction xs generalizing s with
  | nil => simp
  | cons x xs ih => rw [State.afterSlots_cons, ih]; simp [State.afterSlot, Nat.add_assoc]

/-- No stretch touches anything but the lines, FRAME, NOW and TRACE. -/
theorem State.afterSlots_frame (s : State) (xs : List Slot) :
    s.afterSlots xs =
      { s with
        clockLvl := (s.afterSlots xs).clockLvl
        dataDir := (s.afterSlots xs).dataDir
        dataLvl := (s.afterSlots xs).dataLvl
        frame := (s.afterSlots xs).frame
        now := (s.afterSlots xs).now
        trace := (s.afterSlots xs).trace } := by
  induction xs generalizing s with
  | nil => rfl
  | cons x xs ih => rw [State.afterSlots_cons, ih]; rfl

/-- Draws and stretches do not meet. -/
theorem State.afterSlots_afterDraws (s : State) (n : Nat) (xs : List Slot) :
    (s.afterDraws n).afterSlots xs = (s.afterSlots xs).afterDraws n := by
  induction xs generalizing s with
  | nil => rfl
  | cons x xs ih => simp only [State.afterSlots_cons]; rw [← ih]; rfl

@[simp] theorem State.afterSlots_params (s : State) (xs : List Slot) : (s.afterSlots xs).params = s.params := by
  rw [State.afterSlots_frame]

@[simp] theorem State.afterSlots_clockDir (s : State) (xs : List Slot) :
    (s.afterSlots xs).clockDir = s.clockDir := by
  rw [State.afterSlots_frame]

@[simp] theorem State.afterSlots_bus (s : State) (xs : List Slot) : (s.afterSlots xs).bus = s.bus := by
  rw [State.afterSlots_frame]

@[simp] theorem State.afterSlots_cmd (s : State) (xs : List Slot) : (s.afterSlots xs).cmd = s.cmd := by
  rw [State.afterSlots_frame]

@[simp] theorem State.afterSlots_nack (s : State) (xs : List Slot) : (s.afterSlots xs).nack = s.nack := by
  rw [State.afterSlots_frame]

@[simp] theorem State.afterSlots_fail (s : State) (xs : List Slot) : (s.afterSlots xs).fail = s.fail := by
  rw [State.afterSlots_frame]

@[simp] theorem State.afterSlots_fault (s : State) (xs : List Slot) : (s.afterSlots xs).fault = s.fault := by
  rw [State.afterSlots_frame]

@[simp] theorem State.afterSlots_faultCode (s : State) (xs : List Slot) : (s.afterSlots xs).faultCode = s.faultCode := by
  rw [State.afterSlots_frame]

@[simp] theorem State.afterSlots_faultCmd (s : State) (xs : List Slot) : (s.afterSlots xs).faultCmd = s.faultCmd := by
  rw [State.afterSlots_frame]

@[simp] theorem State.afterSlots_result0 (s : State) (xs : List Slot) : (s.afterSlots xs).result0 = s.result0 := by
  rw [State.afterSlots_frame]

@[simp] theorem State.afterSlots_result1 (s : State) (xs : List Slot) : (s.afterSlots xs).result1 = s.result1 := by
  rw [State.afterSlots_frame]

@[simp] theorem State.afterSlots_rbuf (s : State) (xs : List Slot) : (s.afterSlots xs).rbuf = s.rbuf := by
  rw [State.afterSlots_frame]

@[simp] theorem State.afterSlots_env (s : State) (xs : List Slot) : (s.afterSlots xs).env = s.env := by
  rw [State.afterSlots_frame]

@[simp] theorem State.afterSlots_draws (s : State) (xs : List Slot) : (s.afterSlots xs).draws = s.draws := by
  rw [State.afterSlots_frame]

@[simp] theorem State.afterSlots_pending (s : State) (xs : List Slot) : (s.afterSlots xs).pending = s.pending := by
  rw [State.afterSlots_frame]

@[simp] theorem State.afterSlots_replies (s : State) (xs : List Slot) : (s.afterSlots xs).replies = s.replies := by
  rw [State.afterSlots_frame]

@[simp] theorem State.afterSlots_drawAt (s : State) (xs : List Slot) (k : Nat) (l : Line) :
    (s.afterSlots xs).drawAt k l = s.drawAt k l := by
  rw [State.afterSlots_frame]; rfl

/-! ## One stretch (R140, R141, R160, R161) -/

theorem condStart_run {s : State} (h : s.clockDir = .output) : condStart s = .ok () (s.afterSlot .start) := by
  cases hv : s.dataLvl <;>
  simp [condStart, Cmd.bind_run, drvSetLvl, drvSetDir, State.dir, State.lvl, State.setLvl, State.setDir, State.emitDrive,
    State.emit, State.drive, driveOf, State.wait, h, hv, State.afterSlot, slotLevel, slotTime, slotEvents, drv, tBit, tLow,
    tHigh] <;> omega

theorem condStop_run {s : State} (h : s.clockDir = .output) : condStop s = .ok () (s.afterSlot .stop) := by
  cases hv : s.dataLvl <;>
  simp [condStop, Cmd.bind_run, drvSetLvl, drvSetDir, State.dir, State.lvl, State.setLvl, State.setDir, State.emitDrive,
    State.emit, State.drive, driveOf, State.wait, h, hv, State.afterSlot, slotLevel, slotTime, slotEvents, drv, tBit, tLow,
    tHigh] <;> omega

theorem bitSend_run {v : Level} {s : State} (h : s.clockDir = .output) :
    bitSend v s = .ok () (s.afterSlot (.driven v)) := by
  cases hr : s.params.sendBitRelease <;> cases hv : s.dataLvl <;> cases v <;>
  simp [bitSend, releaseAfterBit, Cmd.bind_run, drvSetLvl, drvSetDir, State.dir, State.lvl, State.setLvl, State.setDir,
    State.emitDrive, State.emit, State.drive, driveOf, State.wait, State.advanceFrame, h, hv, hr, State.afterSlot,
    slotLevel, slotTime, slotEvents, drv, endClock, endDir, tBit, tLow, tHigh] <;> omega

theorem bitRecv_run {s : State} (h : s.clockDir = .output) :
    bitRecv s = .ok (s.drawAt 0 .data) ((s.afterSlot (.sampled (s.drawAt 0 .data))).afterDraws 1) := by
  simp [bitRecv, drvRead, observe, Cmd.bind_run, Cmd.map_run, drvSetLvl, drvSetDir, State.dir, State.lvl, State.setLvl,
    State.setDir, State.emitDrive, State.emit, State.drive, driveOf, State.wait, State.advanceFrame, State.afterDraws,
    State.drawAt, h, State.afterSlot, slotLevel, slotTime, slotEvents, tBit, tLow, tHigh]
  omega

theorem condStart_raise {s : State} (h : s.clockDir = .input) : condStart s = .error .levelWhileInput s :=
  Cmd.bind_error (drvSetLvl_raise (by simpa [State.dir] using h))

theorem condStop_raise {s : State} (h : s.clockDir = .input) : condStop s = .error .levelWhileInput s :=
  Cmd.bind_error (drvSetLvl_raise (by simpa [State.dir] using h))

theorem bitSend_raise {v : Level} {s : State} (h : s.clockDir = .input) : bitSend v s = .error .levelWhileInput s :=
  Cmd.bind_error (drvSetLvl_raise (by simpa [State.dir] using h))

theorem bitRecv_raise {s : State} (h : s.clockDir = .input) : bitRecv s = .error .levelWhileInput s :=
  Cmd.bind_error (drvSetLvl_raise (by simpa [State.dir] using h))

/-! ## Bytes (R166, R167) -/

theorem sendLevels_run {vs : List Level} {s : State} (h : s.clockDir = .output) :
    sendLevels vs s = .ok () (s.afterSlots (vs.map .driven)) := by
  induction vs generalizing s with
  | nil => rfl
  | cons v vs ih =>
    rw [sendLevels, Cmd.bind_ok (bitSend_run h), ih (by simpa [State.afterSlot] using h)]
    rfl

theorem byteSend_run {i : Byte} {s : State} (h : s.clockDir = .output) :
    byteSend i s = .ok () (s.afterSlots (byteSlots i)) := sendLevels_run h

theorem byteSend_raise {i : Byte} {s : State} (h : s.clockDir = .input) :
    byteSend i s = .error .levelWhileInput s := Cmd.bind_error (bitSend_raise h)

theorem State.drawnSlots_succ (s : State) (k n : Nat) :
    s.drawnSlots k (n + 1) = .sampled (s.drawAt k .data) :: s.drawnSlots (k + 1) n := by
  simp [State.drawnSlots, List.range_succ_eq_map, Nat.add_assoc, Nat.add_comm 1, Function.comp_def]

/-- Slots that are drawn after `n` draws are the slots drawn `n` later. -/
theorem State.drawnSlots_afterDraws (s : State) (n k m : Nat) :
    (s.afterDraws n).drawnSlots k m = s.drawnSlots (n + k) m := by
  simp [State.drawnSlots, State.drawAt_afterDraws, Nat.add_assoc]

@[simp] theorem State.drawnSlots_afterSlots (s : State) (xs : List Slot) (k m : Nat) :
    (s.afterSlots xs).drawnSlots k m = s.drawnSlots k m := by
  simp [State.drawnSlots]

theorem recvBits_run {n : Nat} {acc : Byte} {s : State} (h : s.clockDir = .output) :
    recvBits n acc s =
      .ok ((List.range n).foldl (fun a j => shiftIn a (s.drawAt j .data)) acc)
        ((s.afterSlots (s.drawnSlots 0 n)).afterDraws n) := by
  induction n generalizing acc s with
  | zero => simp [recvBits, State.drawnSlots, State.afterDraws]
  | succ n ih =>
    rw [recvBits, Cmd.bind_ok (bitRecv_run h), ih (by simpa [State.afterSlot] using h), State.drawnSlots_succ,
      State.afterSlots_cons, State.drawnSlots_afterDraws, State.afterSlots_afterDraws, State.afterDraws_afterDraws]
    simp only [List.range_succ_eq_map, List.foldl_cons, List.foldl_map, State.drawAt_afterDraws, Nat.add_comm 1]
    rfl

theorem shiftIn_ofNat (n : Nat) (v : Level) :
    shiftIn (BitVec.ofNat 8 n) v = BitVec.ofNat 8 (2 * n + v.toBit.toNat) := by
  apply BitVec.eq_of_toNat_eq
  cases v with
  | low => simp [shiftIn, levelByte, Level.toBit, Nat.shiftLeft_eq]; omega
  | high =>
    have h : (BitVec.ofNat 8 n <<< 1 ||| 1#8) = BitVec.ofNat 8 n <<< 1 + 1#8 := by
      rw [BitVec.add_eq_or_of_and_eq_zero]
      ext i hi
      cases i <;> simp [BitVec.getElem_one]
    simp [shiftIn, levelByte, Level.toBit, h, Nat.shiftLeft_eq]
    omega

/-- Bits shifted in one after the other make the number they are the digits of. -/
theorem shiftIn_foldl (s : State) (js : List Nat) (n : Nat) :
    js.foldl (fun a j => shiftIn a (s.drawAt j .data)) (BitVec.ofNat 8 n) =
      BitVec.ofNat 8 (js.foldl (fun acc j => 2 * acc + (s.drawAt j .data).toBit.toNat) n) := by
  induction js generalizing n with
  | nil => rfl
  | cons j js ih => rw [List.foldl_cons, shiftIn_ofNat, ih]; rfl

theorem byteRecv_run {s : State} (h : s.clockDir = .output) :
    byteRecv s = .ok (s.drawnByte 0) ((s.afterSlots (s.drawnSlots 0 8)).afterDraws 8) := by
  rw [byteRecv, recvBits_run h]
  congr 1
  simpa [State.drawnByte] using shiftIn_foldl s (List.range 8) 0

theorem byteRecv_raise {s : State} (h : s.clockDir = .input) : byteRecv s = .error .levelWhileInput s :=
  Cmd.bind_error (bitRecv_raise h)

theorem State.drawnByte_afterDraws (s : State) (n k : Nat) : (s.afterDraws n).drawnByte k = s.drawnByte (n + k) := by
  simp [State.drawnByte, State.drawAt_afterDraws, Nat.add_assoc]

@[simp] theorem State.drawnByte_afterSlots (s : State) (xs : List Slot) (k : Nat) :
    (s.afterSlots xs).drawnByte k = s.drawnByte k := by
  simp [State.drawnByte]

theorem State.ackAt_afterDraws (s : State) (n k : Nat) : (s.afterDraws n).ackAt k = s.ackAt (n + k) := by
  simp [State.ackAt, State.drawAt_afterDraws]

@[simp] theorem State.ackAt_afterSlots (s : State) (xs : List Slot) (k : Nat) :
    (s.afterSlots xs).ackAt k = s.ackAt k := by
  simp [State.ackAt]

/-! ## Transfers (R170, R171) -/

/-- STATUS.NACK and STATUS.FAIL as `xfer_send` writes them (R170). -/
def State.noteAck (s : State) (a : Ack) : State := (s.setNack (ackFlag a)).setFail (ackFlag a)

theorem recvAck_run {s : State} (h : s.clockDir = .output) :
    recvAck s = .ok (s.ackAt 0) ((s.afterSlot (.sampled (s.drawAt 0 .data))).afterDraws 1) := by
  rw [recvAck, Cmd.bind_ok (bitRecv_run h), param_run]
  rfl

theorem xferSend_run {i : Byte} {s : State} (h : s.clockDir = .output) :
    xferSend i s = .ok (s.ackAt 0)
      (((s.afterSlots (byteSlots i ++ [.sampled (s.drawAt 0 .data)])).afterDraws 1).noteAck (s.ackAt 0)) := by
  rw [xferSend, Cmd.bind_ok (byteSend_run h), Cmd.bind_ok (recvAck_run (by simpa using h)), State.afterSlots_append]
  simp [Cmd.bind_run, Cmd.map_run, State.noteAck]

theorem xferSend_raise {i : Byte} {s : State} (h : s.clockDir = .input) : xferSend i s = .error .levelWhileInput s :=
  Cmd.bind_error (byteSend_raise h)

theorem xferRecv_run {a : Ack} {s : State} (h : s.clockDir = .output) :
    xferRecv a s = .ok (s.drawnByte 0)
      ((s.afterSlots (s.drawnSlots 0 8 ++ [.driven (ackLevelOf s.params a)])).afterDraws 8) := by
  rw [xferRecv, Cmd.bind_ok (byteRecv_run h), Cmd.bind_ok (param_run _ _), Cmd.bind_ok (bitSend_run (by simpa using h)),
    State.afterSlots_append]
  simp only [Cmd.pure_run, ← State.afterSlots_afterDraws]
  rfl

theorem xferRecv_raise {a : Ack} {s : State} (h : s.clockDir = .input) : xferRecv a s = .error .levelWhileInput s :=
  Cmd.bind_error (byteRecv_raise h)

end Sys2Proof.Machine
end

