-- ==== Sys2Proof/Laws/Sequences.lean ====
section
/-! SUPPORT. What the sequencer's loops do, said once: bytes sent up to the first NACK, and a block received. -/

namespace Sys2Proof.Machine

/-! ## The two acknowledgement flags beside the waveform -/

@[simp] theorem State.noteAck_clockDir (s : State) (a : Ack) : (s.noteAck a).clockDir = s.clockDir := rfl

@[simp] theorem State.noteAck_params (s : State) (a : Ack) : (s.noteAck a).params = s.params := rfl

@[simp] theorem State.noteAck_drawAt (s : State) (a : Ack) (k : Nat) (l : Line) :
    (s.noteAck a).drawAt k l = s.drawAt k l := rfl

@[simp] theorem State.noteAck_ackAt (s : State) (a : Ack) (k : Nat) : (s.noteAck a).ackAt k = s.ackAt k := rfl

@[simp] theorem State.noteAck_drawnByte (s : State) (a : Ack) (k : Nat) :
    (s.noteAck a).drawnByte k = s.drawnByte k := rfl

@[simp] theorem State.noteAck_noteAck (s : State) (a b : Ack) : (s.noteAck a).noteAck b = s.noteAck b := rfl

@[simp] theorem State.noteAck_result0 (s : State) (a : Ack) : (s.noteAck a).result0 = s.result0 := rfl

theorem State.noteAck_afterDraws (s : State) (a : Ack) (n : Nat) :
    (s.noteAck a).afterDraws n = (s.afterDraws n).noteAck a := rfl

theorem State.noteAck_afterSlots (s : State) (a : Ack) (xs : List Slot) :
    (s.noteAck a).afterSlots xs = (s.afterSlots xs).noteAck a := by
  induction xs generalizing s with
  | nil => rfl
  | cons x xs ih => simp only [State.afterSlots_cons]; rw [← ih]; rfl

/-! ## Slots drawn later -/

theorem State.sentSlots_afterDraws (s : State) (n k : Nat) (bytes : List Byte) :
    (s.afterDraws n).sentSlots k bytes = s.sentSlots (n + k) bytes := by
  induction bytes generalizing k with
  | nil => rfl
  | cons i rest ih => simp [State.sentSlots, ih, State.drawAt_afterDraws, Nat.add_assoc]

@[simp] theorem State.sentSlots_afterSlots (s : State) (xs : List Slot) (k : Nat) (bytes : List Byte) :
    (s.afterSlots xs).sentSlots k bytes = s.sentSlots k bytes := by
  induction bytes generalizing k with
  | nil => rfl
  | cons i rest ih => simp [State.sentSlots, ih]

@[simp] theorem State.sentSlots_noteAck (s : State) (a : Ack) (k : Nat) (bytes : List Byte) :
    (s.noteAck a).sentSlots k bytes = s.sentSlots k bytes := by
  induction bytes generalizing k with
  | nil => rfl
  | cons i rest ih => simp [State.sentSlots, ih]

theorem State.readSlots_afterDraws (s : State) (n k m : Nat) :
    (s.afterDraws n).readSlots k m = s.readSlots (n + k) m := by
  induction m generalizing k with
  | zero => rfl
  | succ m ih => simp [State.readSlots, ih, State.drawnSlots_afterDraws, Nat.add_assoc]

@[simp] theorem State.readSlots_afterSlots (s : State) (xs : List Slot) (k m : Nat) :
    (s.afterSlots xs).readSlots k m = s.readSlots k m := by
  induction m generalizing k with
  | zero => rfl
  | succ m ih => simp [State.readSlots, ih]

@[simp] theorem State.readSlots_noteAck (s : State) (a : Ack) (k m : Nat) :
    (s.noteAck a).readSlots k m = s.readSlots k m := by
  induction m generalizing k with
  | zero => rfl
  | succ m ih => simp [State.readSlots, ih]; rfl

/-! ## The loops (R202, R203) -/

/-- The first byte of a list that is sent, and what follows it (R202). -/
theorem sendUntilNack_cons {x : Byte} {rest : List Byte} {s : State} (h : s.clockDir = .output) :
    sendUntilNack (x :: rest) s =
      (match s.ackAt 0 with
      | .nack => pure ()
      | .ack => sendUntilNack rest : Cmd Unit)
        (((s.afterSlots (byteSlots x ++ [.sampled (s.drawAt 0 .data)])).afterDraws 1).noteAck (s.ackAt 0)) := by
  refine Cmd.bind_then (xferSend_run h) ?_
  cases s.ackAt 0 <;> rfl

/-- Every byte acknowledged: every byte is sent (R202). -/
theorem sendUntilNack_acks {x : Byte} {rest : List Byte} {s : State} (h : s.clockDir = .output)
    (ha : ∀ j, j < rest.length + 1 → s.ackAt j = .ack) :
    sendUntilNack (x :: rest) s =
      .ok () (((s.afterSlots (s.sentSlots 0 (x :: rest))).afterDraws (rest.length + 1)).noteAck .ack) := by
  induction rest generalizing x s with
  | nil => rw [sendUntilNack_cons h, ha 0 (by simp)]; rfl
  | cons y rest ih =>
    rw [sendUntilNack_cons h, ha 0 (by simp)]
    simp only
    rw [ih (by simpa using h)
      (by intro j hj; simpa [State.ackAt_afterDraws] using ha (1 + j) (by simp at hj ⊢; omega))]
    simp only [State.sentSlots_noteAck, State.sentSlots_afterDraws, State.sentSlots_afterSlots,
      State.noteAck_afterSlots, State.noteAck_afterDraws, State.noteAck_noteAck, State.afterSlots_afterDraws,
      State.afterDraws_afterDraws, ← State.afterSlots_append]
    simp [State.sentSlots, Nat.add_comm 1]

/-- The first NACK at byte `k`: nothing after it is sent (R201). -/
theorem sendUntilNack_nack {bytes : List Byte} {s : State} {k : Nat} (h : s.clockDir = .output)
    (hk : k < bytes.length) (ha : ∀ j, j < k → s.ackAt j = .ack) (hn : s.ackAt k = .nack) :
    sendUntilNack bytes s =
      .ok () (((s.afterSlots (s.sentSlots 0 (bytes.take (k + 1)))).afterDraws (k + 1)).noteAck .nack) := by
  induction bytes generalizing k s with
  | nil => simp at hk
  | cons x rest ih =>
    rw [sendUntilNack_cons h]
    cases k with
    | zero => rw [hn]; simp [State.sentSlots]
    | succ k =>
      rw [ha 0 (by omega)]
      simp only
      rw [ih (k := k) (by simpa using h) (by simpa using hk)
        (by intro j hj; simpa [State.ackAt_afterDraws] using ha (1 + j) (by omega))
        (by simpa [State.ackAt_afterDraws, Nat.add_comm 1] using hn)]
      simp only [State.sentSlots_noteAck, State.sentSlots_afterDraws, State.sentSlots_afterSlots,
        State.noteAck_afterSlots, State.noteAck_afterDraws, State.noteAck_noteAck, State.afterSlots_afterDraws,
        State.afterDraws_afterDraws, ← State.afterSlots_append]
      simp [State.sentSlots, Nat.add_comm 1]

/-- A block received: each byte drawn in turn, with its acknowledgement slot (R203). -/
theorem recvBlock_run {n : Nat} {s : State} (h : s.clockDir = .output) :
    recvBlock n s =
      .ok ((List.range n).map fun k => s.drawnByte (8 * k)) ((s.afterSlots (s.readSlots 0 n)).afterDraws (8 * n)) := by
  induction n generalizing s with
  | zero => simp [recvBlock, State.readSlots, State.afterDraws]
  | succ n ih =>
    rw [recvBlock, Cmd.bind_ok (xferRecv_run h), Cmd.bind_ok (ih (by simpa using h))]
    simp only [Cmd.pure_run, State.readSlots_afterDraws, State.readSlots_afterSlots, State.drawnByte_afterDraws,
      State.drawnByte_afterSlots, State.afterSlots_afterDraws, State.afterDraws_afterDraws, ← State.afterSlots_append,
      List.range_succ_eq_map, List.map_cons, List.map_map, Function.comp_def]
    simp [State.readSlots, Nat.mul_succ, Nat.add_comm 8]

/-! ## A transaction in progress (R200 to R203) -/

/-- A transaction in progress: the stretches run since the state `s`, the draws made since it, and the acknowledgement
read last. -/
def State.within (s : State) (xs : List Slot) (n : Nat) (a : Ack) : State :=
  ((s.afterSlots xs).afterDraws n).noteAck a

@[simp] theorem State.within_clockDir (s : State) (xs : List Slot) (n : Nat) (a : Ack) :
    (s.within xs n a).clockDir = s.clockDir := by
  simp [State.within]

@[simp] theorem State.within_params (s : State) (xs : List Slot) (n : Nat) (a : Ack) :
    (s.within xs n a).params = s.params := by
  simp [State.within]

theorem within_xferSend {i : Byte} {s : State} {xs : List Slot} {n : Nat} {a : Ack} (h : s.clockDir = .output) :
    xferSend i (s.within xs n a) =
      .ok (s.ackAt n) (s.within (xs ++ s.sentSlots n [i]) (n + 1) (s.ackAt n)) := by
  rw [xferSend_run (by simpa using h)]
  simp only [State.within, State.noteAck_ackAt, State.ackAt_afterDraws, State.ackAt_afterSlots, State.noteAck_drawAt,
    State.drawAt_afterDraws, State.afterSlots_drawAt, State.noteAck_afterSlots, State.noteAck_afterDraws,
    State.noteAck_noteAck, State.afterSlots_afterDraws, State.afterDraws_afterDraws, ← State.afterSlots_append]
  simp [State.sentSlots]

theorem within_condStart {s : State} {xs : List Slot} {n : Nat} {a : Ack} (h : s.clockDir = .output) :
    condStart (s.within xs n a) = .ok () (s.within (xs ++ [.start]) n a) := by
  rw [condStart_run (by simpa using h), State.within, State.within, ← State.afterSlots_nil (State.afterSlot _ _),
    ← State.afterSlots_cons, State.noteAck_afterSlots, State.afterSlots_afterDraws, ← State.afterSlots_append]

theorem within_recvBlock {m : Nat} {s : State} {xs : List Slot} {n : Nat} {a : Ack} (h : s.clockDir = .output) :
    recvBlock m (s.within xs n a) =
      .ok ((List.range m).map fun k => s.drawnByte (n + 8 * k)) (s.within (xs ++ s.readSlots n m) (n + 8 * m) a) := by
  rw [recvBlock_run (by simpa using h)]
  simp only [State.within, State.noteAck_drawnByte, State.drawnByte_afterDraws, State.drawnByte_afterSlots,
    State.readSlots_noteAck, State.readSlots_afterDraws, State.readSlots_afterSlots, State.noteAck_afterSlots,
    State.noteAck_afterDraws, State.afterSlots_afterDraws, State.afterDraws_afterDraws, ← State.afterSlots_append]
  rfl

/-- DEV_W is not acknowledged (R203). -/
theorem readBytes_nack_devW {i : Byte} {count : Nat} {s : State} (h : s.clockDir = .output) (h0 : s.ackAt 0 = .nack) :
    readBytes i count s = .ok none (s.within (s.sentSlots 0 [devW s.params]) 1 .nack) := by
  refine Cmd.bind_then (param_run _ _) (Cmd.bind_then (xferSend_run h) ?_)
  rw [h0]
  rfl

/-- The register address is not acknowledged (R203). -/
theorem readBytes_nack_register {i : Byte} {count : Nat} {s : State} (h : s.clockDir = .output)
    (h0 : s.ackAt 0 = .ack) (h1 : s.ackAt 1 = .nack) :
    readBytes i count s = .ok none (s.within (s.sentSlots 0 [devW s.params, i]) 2 .nack) := by
  refine Cmd.bind_then (param_run _ _) (Cmd.bind_then (xferSend_run h) ?_)
  rw [h0]
  refine Cmd.bind_then (within_xferSend (a := .ack) h) ?_
  rw [h1]
  simp [State.sentSlots]

/-- DEV_R is not acknowledged (R203). -/
theorem readBytes_nack_devR {i : Byte} {count : Nat} {s : State} (h : s.clockDir = .output)
    (h0 : s.ackAt 0 = .ack) (h1 : s.ackAt 1 = .ack) (h2 : s.ackAt 2 = .nack) :
    readBytes i count s =
      .ok none (s.within (s.sentSlots 0 [devW s.params, i] ++ .start :: s.sentSlots 2 [devR s.params]) 3 .nack) := by
  refine Cmd.bind_then (param_run _ _) (Cmd.bind_then (xferSend_run h) ?_)
  rw [h0]
  refine Cmd.bind_then (within_xferSend (a := .ack) h) ?_
  rw [h1]
  refine Cmd.bind_then (within_condStart h) (Cmd.bind_then (param_run _ _) (Cmd.bind_then (within_xferSend h) ?_))
  rw [h2]
  simp [State.sentSlots]

/-- All three are acknowledged: the block is read (R203). -/
theorem readBytes_acks {i : Byte} {count : Nat} {s : State} (h : s.clockDir = .output)
    (h0 : s.ackAt 0 = .ack) (h1 : s.ackAt 1 = .ack) (h2 : s.ackAt 2 = .ack) :
    readBytes i count s =
      .ok (some ((List.range count).map fun k => s.drawnByte (3 + 8 * k)))
        (s.within (s.sentSlots 0 [devW s.params, i] ++ .start :: s.sentSlots 2 [devR s.params] ++ s.readSlots 3 count)
          (3 + 8 * count) .ack) := by
  refine Cmd.bind_then (param_run _ _) (Cmd.bind_then (xferSend_run h) ?_)
  rw [h0]
  refine Cmd.bind_then (within_xferSend (a := .ack) h) ?_
  rw [h1]
  refine Cmd.bind_then (within_condStart h) (Cmd.bind_then (param_run _ _) (Cmd.bind_then (within_xferSend h) ?_))
  rw [h2]
  refine Cmd.bind_then (within_recvBlock h) ?_
  simp [State.sentSlots]

/-- The way out of every sequence: one STOP, and BUS is IDLE (R201). -/
theorem within_close {s : State} {xs : List Slot} {n : Nat} {a : Ack} (h : s.clockDir = .output) :
    condStop (((s.afterSlot .start).setBus .addressed).within xs n a) =
      .ok () (((s.afterSlots (.start :: xs ++ [.stop])).afterDraws n).noteAck a |>.setBus .addressed) := by
  rw [condStop_run (by rw [State.within_clockDir]; exact h)]
  congr 1
  have hb : ∀ (u : State) (ys : List Slot), (u.setBus .addressed).afterSlots ys = (u.afterSlots ys).setBus .addressed := by
    intro u ys
    induction ys generalizing u with
    | nil => rfl
    | cons y ys ih => simp only [State.afterSlots_cons]; rw [← ih]; rfl
  rw [State.within, ← State.afterSlots_nil (State.afterSlot _ .stop), ← State.afterSlots_cons, State.noteAck_afterSlots,
    State.afterSlots_afterDraws, ← State.afterSlots_append, hb, ← State.afterSlots_cons]
  rfl

end Sys2Proof.Machine
end

