-- ==== Sys2Proof/Laws/Exec.lean ====
section
/-! SUPPORT. Everything a command can do, said once: the inversion of `exec` (R232, R115 to R118, R142, R143, R160 to
R171, R202 to R204). -/

namespace Sys2Proof.Machine

/-- A bit slot, driven or sampled. -/
def Slot.isBit : Slot → Prop
  | .driven _ => True
  | .sampled _ => True
  | .start => False
  | .stop => False

/-- A row of bit slots and START conditions. -/
def Slot.isOpen : Slot → Prop
  | .stop => False
  | _ => True

/-- A framer command that ran: `len` bit slots in an open transaction, draws, and at most RESULT0 and the two
acknowledgement flags. -/
def RanSlots (len : Nat) (s t : State) : Prop :=
  ∃ xs n, s.bus = .addressed ∧ s.clockDir = .output ∧ (∀ x ∈ xs, x.isBit) ∧ xs.length = len ∧
    t = { (s.afterSlots xs).afterDraws n with result0 := t.result0, nack := t.nack, fail := t.fail }

/-- A sequencer command that ran: a whole transaction of at most `limit` stretches between its START and its STOP, from
IDLE to IDLE, and at most the two acknowledgement flags and RBUF. -/
def RanTransaction (limit : Nat) (s t : State) : Prop :=
  ∃ xs n a, s.bus = .idle ∧ s.clockDir = .output ∧ (∀ x ∈ xs, x.isOpen) ∧ xs.length ≤ limit ∧
    (∀ u : State, (u.afterSlots xs).frame = u.frame) ∧
    t = { ((s.afterSlots (.start :: xs ++ [.stop])).afterDraws n).noteAck a with rbuf := t.rbuf } ∧
    (a = .nack → t.rbuf = s.rbuf)

/-- What a command leaves that did not fault. -/
def Ran (i : Instr) (s t : State) : Prop :=
  match i with
  | .bcd r b => t = (s.setResult0 (tensDigit (tensWidth s.params r) b)).setResult1 (onesDigit b)
  | .setdir l d =>
    s.bus = .idle ∧ (l = .data → d ≠ s.dataDir → s.clockHeldLow) ∧ t = (s.setDir l d).emitDrive l
  | .setlvl l v =>
    s.bus = .idle ∧ s.dir l = .output ∧ (l = .data → v ≠ s.dataLvl → s.clockHeldLow) ∧ t = (s.setLvl l v).emitDrive l
  | .readlvl l => ∃ v n, t = ((s.afterDraws n).emit (.sample s.now l v)).setResult0 (levelByte v)
  | .delay n => t = s.wait n
  | .start => s.frame = 0 ∧ s.clockDir = .output ∧ t = ((s.afterSlot .start).setBus .addressed).clearFrame
  | .stop => s.bus = .addressed ∧ s.frame = 0 ∧ s.clockDir = .output ∧ t = (s.afterSlot .stop).setBus .idle
  | .sendbit _ | .sendack _ => RanSlots 1 s t ∧ t.result0 = s.result0 ∧ t.nack = s.nack ∧ t.fail = s.fail
  | .sendbyte _ => RanSlots 8 s t ∧ t.result0 = s.result0 ∧ t.nack = s.nack ∧ t.fail = s.fail
  | .recvbit => RanSlots 1 s t ∧ t.nack = s.nack ∧ t.fail = s.fail
  | .recvbyte => RanSlots 8 s t ∧ t.nack = s.nack ∧ t.fail = s.fail
  | .recv _ => RanSlots 9 s t ∧ t.nack = s.nack ∧ t.fail = s.fail
  | .recvack => RanSlots 1 s t ∧ t.fail = s.fail
  | .send _ => RanSlots 9 s t ∧ t.result0 = s.result0
  | .initp => RanTransaction (9 * (2 + s.params.initValues.length)) s t ∧ t.rbuf = s.rbuf
  | .readblk _ count => RanTransaction (1 + 9 * (3 + count)) s t

theorem byteSlots_isBit (i : Byte) : ∀ x ∈ byteSlots i, x.isBit := by simp [byteSlots, Slot.isBit]

theorem State.drawnSlots_isBit (s : State) (k n : Nat) : ∀ x ∈ s.drawnSlots k n, x.isBit := by
  simp [State.drawnSlots, Slot.isBit]

theorem State.sentSlots_isBit (s : State) (k : Nat) (bytes : List Byte) : ∀ x ∈ s.sentSlots k bytes, x.isBit := by
  induction bytes generalizing k with
  | nil => simp [State.sentSlots]
  | cons i rest ih =>
    simp only [State.sentSlots, List.mem_append, List.mem_cons]
    rintro x (hx | rfl | hx)
    · exact byteSlots_isBit i x hx
    · trivial
    · exact ih (k + 1) x hx

theorem State.readSlots_isBit (s : State) (k n : Nat) : ∀ x ∈ s.readSlots k n, x.isBit := by
  induction n generalizing k with
  | zero => simp [State.readSlots]
  | succ n ih =>
    simp only [State.readSlots, List.mem_append, List.mem_cons]
    rintro x (hx | rfl | hx)
    · exact s.drawnSlots_isBit k 8 x hx
    · trivial
    · exact ih (k + 8) x hx

theorem Slot.isBit.isOpen {x : Slot} (h : x.isBit) : x.isOpen := by cases x <;> trivial

/-! ## FRAME over a row of slots (R29) -/

theorem State.afterSlot_frame_bit (s : State) {x : Slot} (h : x.isBit) : (s.afterSlot x).frame = s.frame + 1 := by
  cases x <;> first | rfl | exact h.elim

/-- A row of bit slots advances FRAME by its length, mod 9. -/
theorem State.afterSlots_frame_bits (s : State) {xs : List Slot} (h : ∀ x ∈ xs, x.isBit) :
    (s.afterSlots xs).frame = s.frame + (Fin.ofNat 9 xs.length) := by
  induction xs generalizing s with
  | nil => simp
  | cons x xs ih =>
    rw [State.afterSlots_cons, ih _ fun y hy => h y (by simp [hy]), s.afterSlot_frame_bit (h x (by simp))]
    apply Fin.ext
    simp [Fin.val_add, Fin.ofNat]
    omega

theorem State.sentSlots_length (s : State) (k : Nat) (bytes : List Byte) :
    (s.sentSlots k bytes).length = 9 * bytes.length := by
  induction bytes generalizing k with
  | nil => rfl
  | cons i rest ih => simp [State.sentSlots, byteSlots, ih]; omega

theorem State.readSlots_length (s : State) (k n : Nat) : (s.readSlots k n).length = 9 * n := by
  induction n generalizing k with
  | zero => rfl
  | succ n ih => simp [State.readSlots, State.drawnSlots, ih]; omega

/-- Whole frames leave FRAME as it was. -/
theorem State.afterSlots_frame_whole (s : State) {xs : List Slot} {n : Nat} (h : ∀ x ∈ xs, x.isBit)
    (hn : xs.length = 9 * n) : (s.afterSlots xs).frame = s.frame := by
  rw [s.afterSlots_frame_bits h, hn]
  apply Fin.ext
  simp [Fin.ofNat]

/-! ## The loops, whatever is drawn -/

/-- A list of bytes sent up to the first NACK is some of them sent (R201, R202). -/
theorem sendUntilNack_some {x : Byte} {rest : List Byte} {s : State} (h : s.clockDir = .output) :
    ∃ k n a, sendUntilNack (x :: rest) s = .ok () (s.within (s.sentSlots 0 ((x :: rest).take k)) n a) := by
  induction rest generalizing x s with
  | nil => exact ⟨1, 1, s.ackAt 0, by rw [sendUntilNack_cons h]; cases s.ackAt 0 <;> rfl⟩
  | cons y rest ih =>
    cases ha : s.ackAt 0 with
    | nack => exact ⟨1, 1, .nack, by rw [sendUntilNack_nack (k := 0) h (by simp) (by simp) ha]; rfl⟩
    | ack =>
      rw [sendUntilNack_cons h, ha]
      obtain ⟨k, n, a, hk⟩ := ih (x := y)
        (s := ((s.afterSlots (byteSlots x ++ [.sampled (s.drawAt 0 .data)])).afterDraws 1).noteAck .ack)
        (by simpa using h)
      refine ⟨k + 1, 1 + n, a, ?_⟩
      simp only
      rw [hk]
      simp only [State.within, State.sentSlots_noteAck, State.sentSlots_afterDraws, State.sentSlots_afterSlots,
        State.noteAck_afterSlots, State.noteAck_afterDraws, State.noteAck_noteAck, State.afterSlots_afterDraws,
        State.afterDraws_afterDraws, ← State.afterSlots_append]
      simp [State.sentSlots]

/-! ## Each command -/

/-- A command either ends as `Ran` says or takes a fault with nothing else done (R232, R233). -/
def RanOrFaulted (i : Instr) (s : State) (o : Host.Outcome State Fault Refusal) : Prop :=
  (∃ c, o = .next (s.takeFault c)) ∨ ∃ t, o = .next t ∧ Ran i s t

theorem runCommand_faulted {i : Instr} {m : Cmd Unit} {s : State} {c : FaultCode} (h : m s = .error c s) :
    RanOrFaulted i s (runCommand m s) := .inl ⟨c, runCommand_error h⟩

theorem runCommand_ran {i : Instr} {m : Cmd Unit} {s t : State} (h : m s = .ok () t) (hr : Ran i s t) :
    RanOrFaulted i s (runCommand m s) := .inr ⟨t, runCommand_ok h, hr⟩

theorem execBcd_cases (r : Nat) (b : Byte) (s : State) : RanOrFaulted (.bcd r b) s (execBcd r b s) :=
  runCommand_ran rfl rfl

theorem execDelay_cases (n : Nat) (s : State) : RanOrFaulted (.delay n) s (execDelay n s) := runCommand_ran rfl rfl

theorem execSetdir_cases (l : Line) (d : Dir) (s : State) : RanOrFaulted (.setdir l d) s (execSetdir l d s) := by
  cases hb : s.bus with
  | addressed => exact runCommand_faulted (Cmd.bind_error (rawCheck_raise hb))
  | idle =>
    cases l with
    | clock =>
      exact runCommand_ran (Cmd.bind_then (rawCheck_pass hb) (drvSetDir_clock d s)) ⟨hb, by simp, rfl⟩
    | data =>
      by_cases h : d ≠ s.dataDir ∧ ¬ s.clockHeldLow
      · exact runCommand_faulted (Cmd.bind_then (rawCheck_pass hb) (drvSetDir_raise h.1 h.2))
      · have h' : d ≠ s.dataDir → s.clockHeldLow := fun hd => by_contra fun hc => h ⟨hd, hc⟩
        exact runCommand_ran (Cmd.bind_then (rawCheck_pass hb) (drvSetDir_data h')) ⟨hb, fun _ => h', rfl⟩

theorem execSetlvl_cases (l : Line) (v : Level) (s : State) : RanOrFaulted (.setlvl l v) s (execSetlvl l v s) := by
  cases hb : s.bus with
  | addressed => exact runCommand_faulted (Cmd.bind_error (rawCheck_raise hb))
  | idle =>
    by_cases h : l = .data ∧ s.dataDir = .output ∧ v ≠ s.dataLvl ∧ ¬ s.clockHeldLow
    · obtain ⟨rfl, hd, hv, hc⟩ := h
      exact runCommand_faulted (Cmd.bind_then (rawCheck_pass hb) (Cmd.bind_error (spuriousCheck_raise hd hv hc)))
    · have h' : l = .data → s.dataDir = .output → v ≠ s.dataLvl → s.clockHeldLow :=
        fun hl hd hv => by_contra fun hc => h ⟨hl, hd, hv, hc⟩
      cases ho : s.dir l with
      | input =>
        exact runCommand_faulted
          (Cmd.bind_then (rawCheck_pass hb) (Cmd.bind_then (spuriousCheck_pass h') (drvSetLvl_raise ho)))
      | output =>
        refine runCommand_ran
          (Cmd.bind_then (rawCheck_pass hb) (Cmd.bind_then (spuriousCheck_pass h') (drvSetLvl_output ho)))
          ⟨hb, ho, fun hl => h' hl ?_, rfl⟩
        subst hl
        exact ho

theorem execReadlvl_cases (l : Line) (s : State) : RanOrFaulted (.readlvl l) s (execReadlvl l s) := by
  cases ho : s.dir l with
  | output => exact runCommand_ran (Cmd.bind_then (drvRead_driven ho) (update_run _ _)) ⟨s.lvl l, 0, rfl⟩
  | input => exact runCommand_ran (Cmd.bind_then (drvRead_released ho) (update_run _ _)) ⟨s.drawAt 0 l, 1, rfl⟩

theorem execStart_cases (s : State) : RanOrFaulted .start s (execStart s) := by
  by_cases hf : s.frame = 0
  · cases hc : s.clockDir with
    | input => exact runCommand_faulted (Cmd.bind_then (midByteCheck_pass hf) (Cmd.bind_error (condStart_raise hc)))
    | output =>
      exact runCommand_ran (Cmd.bind_then (midByteCheck_pass hf) (Cmd.bind_then (condStart_run hc) rfl)) ⟨hf, hc, rfl⟩
  · exact runCommand_faulted (Cmd.bind_error (midByteCheck_raise hf))

theorem execStop_cases (s : State) : RanOrFaulted .stop s (execStop s) := by
  cases hb : s.bus with
  | idle => exact runCommand_faulted (Cmd.bind_error (openCheck_raise hb))
  | addressed =>
    by_cases hf : s.frame = 0
    · cases hc : s.clockDir with
      | input =>
        exact runCommand_faulted (Cmd.bind_then (openCheck_pass hb)
          (Cmd.bind_then (midByteCheck_pass hf) (Cmd.bind_error (condStop_raise hc))))
      | output =>
        exact runCommand_ran (Cmd.bind_then (openCheck_pass hb)
          (Cmd.bind_then (midByteCheck_pass hf) (Cmd.bind_then (condStop_run hc) rfl))) ⟨hb, hf, hc, rfl⟩
    · exact runCommand_faulted (Cmd.bind_then (openCheck_pass hb) (Cmd.bind_error (midByteCheck_raise hf)))

/-- A framer command: it faults in its check or at a released CLOCK, or it runs. -/
theorem framer_cases {i : Instr} {kind : SlotKind} {m : Cmd Unit} {s : State}
    (hin : s.clockDir = .input → m s = .error .levelWhileInput s)
    (hout : s.bus = .addressed → s.clockDir = .output → ∃ t, m s = .ok () t ∧ Ran i s t) :
    RanOrFaulted i s (runCommand (framerCheck kind >>= fun _ => m) s) := by
  cases hb : s.bus with
  | idle => exact runCommand_faulted (Cmd.bind_error (framerCheck_idle hb))
  | addressed =>
    by_cases hk : (kind = .byte → s.frame = 0) ∧ (kind = .ack → s.frame = 8)
    · have hp := framerCheck_pass hb hk.1 hk.2
      cases hc : s.clockDir with
      | input => exact runCommand_faulted (Cmd.bind_then hp (hin hc))
      | output =>
        obtain ⟨t, ht, hr⟩ := hout hb hc
        exact runCommand_ran (Cmd.bind_then hp ht) hr
    · cases kind with
      | bit => exact absurd ⟨by simp, by simp⟩ hk
      | byte => exact runCommand_faulted (Cmd.bind_error (framerCheck_byte hb fun h => hk ⟨fun _ => h, by simp⟩))
      | ack => exact runCommand_faulted (Cmd.bind_error (framerCheck_ack hb fun h => hk ⟨by simp, fun _ => h⟩))

theorem RanSlots.of_slots {len : Nat} {s : State} {xs : List Slot} {n : Nat} (hb : s.bus = .addressed) (hc : s.clockDir = .output)
    (hx : ∀ x ∈ xs, x.isBit) (hl : xs.length = len) : RanSlots len s ((s.afterSlots xs).afterDraws n) := ⟨xs, n, hb, hc, hx, hl, rfl⟩

theorem RanSlots.of_slots' {len : Nat} {s : State} {xs : List Slot} (hb : s.bus = .addressed) (hc : s.clockDir = .output)
    (hx : ∀ x ∈ xs, x.isBit) (hl : xs.length = len) : RanSlots len s (s.afterSlots xs) := ⟨xs, 0, hb, hc, hx, hl, rfl⟩

theorem RanSlots.setResult0 {len : Nat} {s u : State} (h : RanSlots len s u) (v : Byte) : RanSlots len s (u.setResult0 v) := by
  obtain ⟨xs, n, hb, hc, hx, hl, hu⟩ := h
  exact ⟨xs, n, hb, hc, hx, hl, by rw [hu]; rfl⟩

theorem RanSlots.setNack {len : Nat} {s u : State} (h : RanSlots len s u) (v : Bool) : RanSlots len s (u.setNack v) := by
  obtain ⟨xs, n, hb, hc, hx, hl, hu⟩ := h
  exact ⟨xs, n, hb, hc, hx, hl, by rw [hu]; rfl⟩

theorem RanSlots.setFail {len : Nat} {s u : State} (h : RanSlots len s u) (v : Bool) : RanSlots len s (u.setFail v) := by
  obtain ⟨xs, n, hb, hc, hx, hl, hu⟩ := h
  exact ⟨xs, n, hb, hc, hx, hl, by rw [hu]; rfl⟩

theorem execSendbit_cases (b : Bool) (s : State) : RanOrFaulted (.sendbit b) s (execSendbit b s) :=
  framer_cases bitSend_raise fun hb hc =>
    ⟨_, bitSend_run hc, ⟨.of_slots' (xs := [.driven (levelOfBit b)]) hb hc (by simp [Slot.isBit]) rfl, rfl, rfl, rfl⟩⟩

theorem execRecvbit_cases (s : State) : RanOrFaulted .recvbit s (execRecvbit s) :=
  framer_cases (fun hc => Cmd.bind_error (bitRecv_raise hc)) fun hb hc =>
    ⟨_, Cmd.bind_then (bitRecv_run hc) (update_run _ _),
      ⟨(RanSlots.of_slots (xs := [.sampled (s.drawAt 0 .data)]) hb hc (by simp [Slot.isBit]) rfl).setResult0 _, rfl, rfl⟩⟩

theorem execSendbyte_cases (i : Byte) (s : State) : RanOrFaulted (.sendbyte i) s (execSendbyte i s) :=
  framer_cases byteSend_raise fun hb hc =>
    ⟨_, byteSend_run hc, ⟨.of_slots' hb hc (byteSlots_isBit i) rfl, by simp, by simp, by simp⟩⟩

theorem execRecvbyte_cases (s : State) : RanOrFaulted .recvbyte s (execRecvbyte s) :=
  framer_cases (fun hc => Cmd.bind_error (byteRecv_raise hc)) fun hb hc =>
    ⟨_, Cmd.bind_then (byteRecv_run hc) (update_run _ _),
      ⟨(RanSlots.of_slots hb hc (s.drawnSlots_isBit 0 8) rfl).setResult0 _, by simp, by simp⟩⟩

theorem execSendack_cases (a : Ack) (s : State) : RanOrFaulted (.sendack a) s (execSendack a s) :=
  framer_cases (fun hc => Cmd.bind_then (param_run _ _) (bitSend_raise hc)) fun hb hc =>
    ⟨_, Cmd.bind_then (param_run _ _) (bitSend_run hc),
      ⟨.of_slots' (xs := [.driven (ackLevelOf s.params a)]) hb hc (by simp [Slot.isBit]) rfl, rfl, rfl, rfl⟩⟩

theorem execRecvack_cases (s : State) : RanOrFaulted .recvack s (execRecvack s) :=
  framer_cases (fun hc => Cmd.bind_error (bitRecv_raise hc)) fun hb hc =>
    ⟨_, Cmd.bind_then (bitRecv_run hc) (Cmd.bind_then (update_run _ _) (update_run _ _)),
      ⟨((RanSlots.of_slots (xs := [.sampled (s.drawAt 0 .data)]) hb hc (by simp [Slot.isBit]) rfl).setResult0 _).setNack _,
        rfl⟩⟩

theorem execSend_cases (i : Byte) (s : State) : RanOrFaulted (.send i) s (execSend i s) :=
  framer_cases (fun hc => Cmd.bind_error (xferSend_raise hc)) fun hb hc => by
    refine ⟨_, Cmd.bind_then (xferSend_run hc) (Cmd.pure_run () _), ?_, by simp⟩
    refine ((RanSlots.of_slots (xs := byteSlots i ++ [.sampled (s.drawAt 0 .data)]) hb hc ?_ rfl).setNack (ackFlag (s.ackAt 0))).setFail (ackFlag (s.ackAt 0))
    simpa [Slot.isBit, or_imp, forall_and] using byteSlots_isBit i

theorem execRecv_cases (a : Ack) (s : State) : RanOrFaulted (.recv a) s (execRecv a s) :=
  framer_cases (fun hc => Cmd.bind_error (xferRecv_raise hc)) fun hb hc => by
    have hx : ∀ x ∈ s.drawnSlots 0 8 ++ [.driven (ackLevelOf s.params a)], x.isBit := by
      simpa [Slot.isBit, or_imp, forall_and] using s.drawnSlots_isBit 0 8
    have hr : RanSlots 9 s _ := .of_slots (n := 8) hb hc hx (by simp [State.drawnSlots])
    exact ⟨_, Cmd.bind_then (xferRecv_run hc) (update_run _ _), hr.setResult0 _, by simp, by simp⟩

/-- A row that leaves FRAME as it was, appended to one that does. -/
theorem keepsFrame_append {xs ys : List Slot} (hx : ∀ u : State, (u.afterSlots xs).frame = u.frame)
    (hy : ∀ u : State, (u.afterSlots ys).frame = u.frame) (u : State) : (u.afterSlots (xs ++ ys)).frame = u.frame := by
  rw [State.afterSlots_append, hy, hx]

theorem keepsFrame_start {xs : List Slot} (hx : ∀ u : State, (u.afterSlots xs).frame = u.frame) (u : State) :
    (u.afterSlots (.start :: xs)).frame = u.frame := by
  rw [State.afterSlots_cons, hx]; rfl

theorem keepsFrame_sent (s : State) (k : Nat) (bytes : List Byte) (u : State) :
    (u.afterSlots (s.sentSlots k bytes)).frame = u.frame :=
  u.afterSlots_frame_whole (s.sentSlots_isBit k bytes) (s.sentSlots_length k bytes)

theorem keepsFrame_read (s : State) (k n : Nat) (u : State) : (u.afterSlots (s.readSlots k n)).frame = u.frame :=
  u.afterSlots_frame_whole (s.readSlots_isBit k n) (s.readSlots_length k n)

theorem State.sentSlots_isOpen (s : State) (k : Nat) (bytes : List Byte) : ∀ x ∈ s.sentSlots k bytes, x.isOpen :=
  fun x hx => (s.sentSlots_isBit k bytes x hx).isOpen

theorem State.readSlots_isOpen (s : State) (k n : Nat) : ∀ x ∈ s.readSlots k n, x.isOpen :=
  fun x hx => (s.readSlots_isBit k n x hx).isOpen

/-- A sequencer command: it faults in its check or at a released CLOCK, or it runs, from the open transaction `u` to its
STOP. -/
theorem sequence_cases {α : Type} {i : Instr} {m : Cmd α} {f : α → Cmd Unit} {s : State}
    (hout : s.bus = .idle → s.clockDir = .output →
      ∃ xs n a b, m ((s.afterSlot .start).setBus .addressed) =
          .ok b (((s.afterSlot .start).setBus .addressed).within xs n a) ∧
        ∃ t, f b (((s.afterSlots (.start :: xs ++ [.stop])).afterDraws n).noteAck a) = .ok () t ∧ Ran i s t) :
    RanOrFaulted i s (runCommand (do
      seqCheck
      condStart
      update fun s => s.setBus .addressed
      let b ← m
      condStop
      update fun s => s.setBus .idle
      f b) s) := by
  cases hb : s.bus with
  | addressed => exact runCommand_faulted (Cmd.bind_error (seqCheck_raise hb))
  | idle =>
    cases hc : s.clockDir with
    | input => exact runCommand_faulted (Cmd.bind_then (seqCheck_pass hb) (Cmd.bind_error (condStart_raise hc)))
    | output =>
      obtain ⟨xs, n, a, b, hm, t, ht, hr⟩ := hout hb hc
      refine runCommand_ran (Cmd.bind_then (seqCheck_pass hb) (Cmd.bind_then (condStart_run hc)
        (Cmd.bind_then (update_run _ _) (Cmd.bind_then hm (Cmd.bind_then (within_close hc)
          (Cmd.bind_then (update_run _ _) ?_)))))) hr
      rw [← ht]
      congr 1
      generalize hu : s.afterSlots (.start :: xs ++ [.stop]) = u
      have hub : u.bus = .idle := by rw [← hu, State.afterSlots_bus, hb]
      cases u
      cases hub
      rfl

theorem RanTransaction.of_slots {limit : Nat} {s : State} {xs : List Slot} (n : Nat) (a : Ack) (hb : s.bus = .idle)
    (hc : s.clockDir = .output) (hx : ∀ x ∈ xs, x.isOpen) (hl : xs.length ≤ limit)
    (hf : ∀ u : State, (u.afterSlots xs).frame = u.frame) :
    RanTransaction limit s (((s.afterSlots (.start :: xs ++ [.stop])).afterDraws n).noteAck a) :=
  ⟨xs, n, a, hb, hc, hx, hl, hf, rfl, fun _ => s.afterSlots_rbuf _⟩

theorem RanTransaction.storeBlock {limit : Nat} {s : State} {xs : List Slot} (n : Nat) (bytes : List Byte)
    (hb : s.bus = .idle) (hc : s.clockDir = .output) (hx : ∀ x ∈ xs, x.isOpen) (hl : xs.length ≤ limit)
    (hf : ∀ u : State, (u.afterSlots xs).frame = u.frame) :
    RanTransaction limit s
      ((((s.afterSlots (.start :: xs ++ [.stop])).afterDraws n).noteAck .ack).storeBlock bytes) :=
  ⟨xs, n, .ack, hb, hc, hx, hl, hf, rfl, fun h => nomatch h⟩

theorem execInitp_cases (s : State) : RanOrFaulted .initp s (execInitp s) := by
  have h : execInitp s = runCommand (do
      seqCheck
      condStart
      update fun s => s.setBus .addressed
      let _ ← (do sendUntilNack (← param fun p => [devW p, p.initStart] ++ p.initValues))
      condStop
      update fun s => s.setBus .idle
      pure ()) s := by
    simp only [execInitp, bind_assoc, bind_pure_unit]
  rw [h]
  refine sequence_cases fun hb hc => ?_
  obtain ⟨k, n, a, hk⟩ := sendUntilNack_some (x := devW s.params) (rest := s.params.initStart :: s.params.initValues)
    (s := (s.afterSlot .start).setBus .addressed) hc
  refine ⟨_, n, a, (), Cmd.bind_then (param_run _ _) hk, _, Cmd.pure_run () _, ?_, s.afterSlots_rbuf _⟩
  refine RanTransaction.of_slots n a hb hc (State.sentSlots_isOpen _ _ _) ?_ (keepsFrame_sent _ _ _)
  rw [State.sentSlots_length, List.length_take]
  simp only [List.length_cons]
  omega

theorem execReadblk_cases (i : Byte) (count : Nat) (s : State) :
    RanOrFaulted (.readblk i count) s (execReadblk i count s) := by
  refine sequence_cases fun hb hc => ?_
  generalize hu : (s.afterSlot .start).setBus .addressed = u
  have huc : u.clockDir = .output := by rw [← hu]; exact hc
  cases h0 : u.ackAt 0 with
  | nack =>
    exact ⟨_, _, _, _, readBytes_nack_devW huc h0, _, update_run _ _,
      .of_slots _ _ hb hc (State.sentSlots_isOpen _ _ _) (by rw [State.sentSlots_length]; simp; omega) (keepsFrame_sent _ _ _)⟩
  | ack =>
    cases h1 : u.ackAt 1 with
    | nack =>
      exact ⟨_, _, _, _, readBytes_nack_register huc h0 h1, _, update_run _ _,
        .of_slots _ _ hb hc (State.sentSlots_isOpen _ _ _) (by rw [State.sentSlots_length]; simp; omega)
          (keepsFrame_sent _ _ _)⟩
    | ack =>
      cases h2 : u.ackAt 2 with
      | nack =>
        refine ⟨_, _, _, _, readBytes_nack_devR huc h0 h1 h2, _, update_run _ _, .of_slots _ _ hb hc ?_ ?_
          (keepsFrame_append (keepsFrame_sent _ _ _) (keepsFrame_start (keepsFrame_sent _ _ _)))⟩
        · simp only [List.mem_append, List.mem_cons]
          rintro x (hx | rfl | hx)
          · exact State.sentSlots_isOpen _ _ _ x hx
          · trivial
          · exact State.sentSlots_isOpen _ _ _ x hx
        · simp [State.sentSlots_length]; omega
      | ack =>
        refine ⟨_, _, _, _, readBytes_acks huc h0 h1 h2, _, update_run _ _, .storeBlock _ _ hb hc ?_ ?_
          (keepsFrame_append (keepsFrame_append (keepsFrame_sent _ _ _) (keepsFrame_start (keepsFrame_sent _ _ _)))
            (keepsFrame_read _ _ _))⟩
        · simp only [List.mem_append, List.mem_cons]
          rintro x ((hx | rfl | hx) | hx)
          · exact State.sentSlots_isOpen _ _ _ x hx
          · trivial
          · exact State.sentSlots_isOpen _ _ _ x hx
          · exact State.readSlots_isOpen _ _ _ x hx
        · simp [State.sentSlots_length, State.readSlots_length]; omega

/-! ## All of them -/

/-- Everything a command can do: it takes a fault with nothing else done (R233), or it runs as `Ran` says (R237). -/
theorem exec_cases (i : Instr) (s : State) : RanOrFaulted i s (exec i s) :=
  match i with
  | .bcd r b => execBcd_cases r b s
  | .setdir l d => execSetdir_cases l d s
  | .setlvl l v => execSetlvl_cases l v s
  | .readlvl l => execReadlvl_cases l s
  | .delay n => execDelay_cases n s
  | .start => execStart_cases s
  | .stop => execStop_cases s
  | .sendbit b => execSendbit_cases b s
  | .recvbit => execRecvbit_cases s
  | .sendbyte b => execSendbyte_cases b s
  | .recvbyte => execRecvbyte_cases s
  | .sendack a => execSendack_cases a s
  | .recvack => execRecvack_cases s
  | .send b => execSend_cases b s
  | .recv a => execRecv_cases a s
  | .initp => execInitp_cases s
  | .readblk b n => execReadblk_cases b n s

/-- The same, of an execution that answered `t`. -/
theorem exec_next {i : Instr} {s t : State} (h : exec i s = .next t) : (∃ c, t = s.takeFault c) ∨ Ran i s t := by
  obtain ⟨c, hc⟩ | ⟨u, hu, hr⟩ := exec_cases i s
  · exact .inl ⟨c, by rw [h] at hc; exact Host.Outcome.next.inj hc⟩
  · rw [h] at hu
    rw [Host.Outcome.next.inj hu]
    exact .inr hr

end Sys2Proof.Machine
end

