-- ==== Sys2Proof/Laws/PerInstr.lean ====
section
/-! SUPPORT. One law per command, about its encoding: the word of a well-formed command carries, in bits [15:12], the OP
that the opcode map gives the command (R82, R84, R88), so no operand spills into OP. -/

namespace Sys2Proof.Laws.MajorOpcode

/-- OP of R84. -/
def op : Instr → BitVec 4
  | .bcd _ _ => 0x0
  | .setdir _ _ => 0x1
  | .setlvl _ _ => 0x2
  | .readlvl _ => 0x3
  | .delay _ => 0x4
  | .start => 0x5
  | .stop => 0x6
  | .sendbit _ => 0x7
  | .recvbit => 0x8
  | .sendbyte _ => 0x9
  | .recvbyte => 0xA
  | .sendack _ => 0xB
  | .recvack => 0xC
  | .send _ => 0xD
  | .recv _ => 0xE
  | .initp => 0xF
  | .readblk _ _ => 0xF

/-- Bits [15:12] of the word of a well-formed command are its OP. -/
def Statement (i : Instr) : Prop := WellFormed i → (encode i).extractLsb' 12 4 = op i

/-- A field that ends below bit 12 leaves bits [15:12] clear. -/
theorem fieldAt_clear {lsb v : Nat} (h : v * 2 ^ lsb < 4096) : (fieldAt lsb v).extractLsb' 12 4 = 0#4 := by
  have hv : v < 65536 := by
    have := Nat.le_mul_of_pos_right v (Nat.two_pow_pos lsb)
    omega
  apply BitVec.eq_of_toNat_eq
  simp only [fieldAt, BitVec.extractLsb'_toNat, BitVec.toNat_shiftLeft, BitVec.toNat_ofNat, Nat.shiftLeft_eq,
    Nat.shiftRight_eq_div_pow]
  rw [Nat.mod_eq_of_lt hv, Nat.mod_eq_of_lt (by omega : v * 2 ^ lsb < 2 ^ 16)]
  omega

/-- A field ored in keeps OP. -/
theorem op_or {w : CmdWord} {c : BitVec 4} {lsb v : Nat} (hw : w.extractLsb' 12 4 = c) (h : v * 2 ^ lsb < 4096) :
    (w ||| fieldAt lsb v).extractLsb' 12 4 = c := by
  rw [BitVec.extractLsb'_or, hw, fieldAt_clear h, BitVec.or_zero]

theorem byte_fits (i : Byte) : i.toNat * 2 ^ 0 < 4096 := by have := i.isLt; omega

theorem bool_fits (b : Bool) : b.toNat * 2 ^ 9 < 4096 ∧ b.toNat * 2 ^ 8 < 4096 ∧ b.toNat * 2 ^ 0 < 4096 := by
  cases b <;> decide

theorem bcd (r : Nat) (i : Byte) : Statement (.bcd r i) := fun h =>
  op_or (op_or rfl (by have := of_decide_eq_true h; omega)) (byte_fits i)

theorem setdir (l : Line) (v : Dir) : Statement (.setdir l v) := fun _ =>
  op_or (op_or rfl (bool_fits _).1) (bool_fits _).2.1

theorem setlvl (l : Line) (v : Level) : Statement (.setlvl l v) := fun _ =>
  op_or (op_or rfl (bool_fits _).1) (bool_fits _).2.1

theorem readlvl (l : Line) : Statement (.readlvl l) := fun _ => op_or rfl (bool_fits _).2.1

theorem delay (n : Nat) : Statement (.delay n) := fun h =>
  op_or rfl (by have := of_decide_eq_true h; omega)

theorem start : Statement .start := fun _ => by decide

theorem stop : Statement .stop := fun _ => by decide

theorem sendbit (b : Bool) : Statement (.sendbit b) := fun _ => op_or rfl (bool_fits _).2.2

theorem recvbit : Statement .recvbit := fun _ => by decide

theorem sendbyte (i : Byte) : Statement (.sendbyte i) := fun _ => op_or rfl (byte_fits i)

theorem recvbyte : Statement .recvbyte := fun _ => by decide

theorem sendack (a : Ack) : Statement (.sendack a) := fun _ => op_or rfl (bool_fits _).2.2

theorem recvack : Statement .recvack := fun _ => by decide

theorem send (i : Byte) : Statement (.send i) := fun _ => op_or rfl (byte_fits i)

theorem recv (a : Ack) : Statement (.recv a) := fun _ => op_or rfl (bool_fits _).2.1

theorem initp : Statement .initp := fun _ => by decide

theorem readblk (i : Byte) (count : Nat) : Statement (.readblk i count) := fun h =>
  op_or (op_or rfl (by have := of_decide_eq_true h; omega)) (byte_fits i)

end Sys2Proof.Laws.MajorOpcode
end

