-- ==== Sys2Proof/Laws/Step.lean ====
section
/-! SUPPORT. What a step can do, said once: one lemma per host access, and the inversion of a step that answers a next
state (R61, R230, R260). -/

namespace Sys2Proof.Machine

/-- The state whose next host access has been taken from the queue. -/
def State.popped (s : State) (rest : List HostAccess) : State := { s with pending := rest }

theorem step_idle {s : State} (h : s.pending = []) : step s = .next s := by
  rw [step, serveNext, h]

theorem step_command {s : State} {w : CmdWord} {rest : List HostAccess} (h : s.pending = .write 0 2 w :: rest) :
    step s = commandEntry w (s.popped rest) := by
  rw [step, serveNext, h]; rfl

theorem step_write {s : State} {a : RegIndex} {v : CmdWord} {rest : List HostAccess} (ha : a ≠ 0)
    (h : s.pending = .write a (regBytes a) v :: rest) : step s = .next (s.popped rest) := by
  rw [step, serveNext, h]
  simp only [serveAccess, ne_eq, not_true_eq_false, if_false, if_neg ha]
  rfl

theorem step_read {s : State} {a : RegIndex} {rest : List HostAccess}
    (h : s.pending = .read a (regBytes a) :: rest) :
    step s = .next { s with pending := rest, replies := s.replies ++ [{ index := a, value := s.regRead a }] } := by
  rw [step, serveNext, h]
  simp only [serveAccess, ne_eq, not_true_eq_false, if_false]
  rfl

/-- An access of another width than the register's has no step (R61). -/
theorem step_write_refused {s : State} {a : RegIndex} {n : Nat} {v : CmdWord} {rest : List HostAccess}
    (h : s.pending = .write a n v :: rest) (hn : n ≠ regBytes a) : step s = .refused (.hostAccessWidth a n) := by
  rw [step, serveNext, h]
  exact if_pos hn

theorem step_read_refused {s : State} {a : RegIndex} {n : Nat} {rest : List HostAccess}
    (h : s.pending = .read a n :: rest) (hn : n ≠ regBytes a) : step s = .refused (.hostAccessWidth a n) := by
  rw [step, serveNext, h]
  exact if_pos hn

theorem step_reset {s : State} {rest : List HostAccess} (h : s.pending = .reset :: rest) :
    step s = .next (s.popped rest).applyReset := by
  rw [step, serveNext, h]; rfl

/-- Command entry after a fault (R235). -/
theorem commandEntry_dropped {w : CmdWord} {s : State} (h : s.fault = true) : commandEntry w s = .next s := if_pos h

/-- Command entry with no fault recorded (R230). -/
theorem commandEntry_runs {w : CmdWord} {s : State} (h : s.fault = false) :
    commandEntry w s = endCommand (runWord w (s.setCmd w)) := if_neg (by simp [h])

theorem runWord_illegal {w : CmdWord} {s : State} {k : Illegal} (h : decode w = .error k) :
    runWord w s = .next (s.takeFault .illegalCmd) := by
  rw [runWord, h]

theorem runWord_legal {w : CmdWord} {s : State} {i : Instr} (h : decode w = .ok i) : runWord w s = exec i s := by
  rw [runWord, h]

theorem endCommand_next {o : Host.Outcome State Fault Refusal} {t : State} :
    endCommand o = .next t ↔ ∃ u, o = .next u ∧ t = u.setCmd 0x0000 := by
  cases o <;> simp [endCommand, eq_comm]

/-- Everything a step that answers a next state can have been: nothing pending; a write to CMD that is dropped after a
fault, that is illegal, or that runs its command; a write elsewhere; a read; a reset. -/
theorem step_cases {s t : State} (h : step s = .next t) :
    (s.pending = [] ∧ t = s) ∨
    (∃ w rest, s.pending = .write 0 2 w :: rest ∧ s.fault = true ∧ t = s.popped rest) ∨
    (∃ w rest k, s.pending = .write 0 2 w :: rest ∧ s.fault = false ∧ decode w = .error k ∧
      t = (((s.popped rest).setCmd w).takeFault .illegalCmd).setCmd 0x0000) ∨
    (∃ w rest i u, s.pending = .write 0 2 w :: rest ∧ s.fault = false ∧ decode w = .ok i ∧
      exec i ((s.popped rest).setCmd w) = .next u ∧ t = u.setCmd 0x0000) ∨
    (∃ a v rest, a ≠ 0 ∧ s.pending = .write a (regBytes a) v :: rest ∧ t = s.popped rest) ∨
    (∃ a rest, s.pending = .read a (regBytes a) :: rest ∧
      t = { s with pending := rest, replies := s.replies ++ [{ index := a, value := s.regRead a }] }) ∨
    (∃ rest, s.pending = .reset :: rest ∧ t = (s.popped rest).applyReset) := by
  cases hp : s.pending with
  | nil =>
    rw [step_idle hp, Host.Outcome.next.injEq] at h
    exact .inl ⟨rfl, h.symm⟩
  | cons x rest =>
    right
    cases x with
    | reset =>
      rw [step_reset hp, Host.Outcome.next.injEq] at h
      exact .inr (.inr (.inr (.inr (.inr ⟨rest, rfl, h.symm⟩))))
    | read a n =>
      by_cases hn : n = regBytes a
      · subst hn
        rw [step_read hp, Host.Outcome.next.injEq] at h
        exact .inr (.inr (.inr (.inr (.inl ⟨a, rest, rfl, h.symm⟩))))
      · rw [step, serveNext, hp] at h
        simp [serveAccess, hn] at h
    | write a n v =>
      by_cases hn : n = regBytes a
      · subst hn
        by_cases ha : a = 0
        · subst ha
          rw [step_command hp] at h
          cases hf : s.fault with
          | true =>
            rw [commandEntry_dropped (s := s.popped rest) hf, Host.Outcome.next.injEq] at h
            exact .inl ⟨v, rest, rfl, rfl, h.symm⟩
          | false =>
            rw [commandEntry_runs (s := s.popped rest) hf, endCommand_next] at h
            obtain ⟨u, hu, rfl⟩ := h
            cases hd : decode v with
            | error k =>
              rw [runWord_illegal hd, Host.Outcome.next.injEq] at hu
              exact .inr (.inl ⟨v, rest, k, rfl, rfl, hd, by rw [← hu]⟩)
            | ok i =>
              rw [runWord_legal hd] at hu
              exact .inr (.inr (.inl ⟨v, rest, i, u, rfl, rfl, hd, hu, rfl⟩))
        · rw [step_write ha hp, Host.Outcome.next.injEq] at h
          exact .inr (.inr (.inr (.inl ⟨a, v, rest, ha, rfl, h.symm⟩)))
      · rw [step, serveNext, hp] at h
        simp [serveAccess, hn] at h

end Sys2Proof.Machine
end

