-- ==== Sys2Proof/Laws/Trace.lean ====
section
/-! SUPPORT. What a bus observer reads from the engine's waveforms: the drives in force and the conditions (R33, R72,
R119, R172). -/

namespace Sys2Proof.Machine

theorem driveAfter_append (l : Line) (d : Drive) (a b : List Event) :
    driveAfter l d (a ++ b) = driveAfter l (driveAfter l d a) b := by
  induction a generalizing d with
  | nil => rfl
  | cons e a ih => cases e <;> simp [driveAfter, ih]

theorem driveAfter_cons (l : Line) (d : Drive) (e : Event) (b : List Event) :
    driveAfter l d (e :: b) = driveAfter l (driveAfter l d [e]) b := driveAfter_append l d [e] b

theorem conditionsFrom_append (cd dd : Drive) (a b : List Event) :
    conditionsFrom cd dd (a ++ b) =
      conditionsFrom cd dd a ++ conditionsFrom (driveAfter .clock cd a) (driveAfter .data dd a) b := by
  induction a generalizing cd dd with
  | nil => rfl
  | cons e a ih =>
    simp only [List.cons_append, conditionsFrom, ih]
    rw [driveAfter_cons .clock cd e a, driveAfter_cons .data dd e a]
    cases conditionOf cd dd e <;> rfl

/-- The conditions of a longer trace are those of the trace, and then those of the events after it. -/
theorem conditions_append (a b : List Event) :
    conditions (a ++ b) =
      conditions a ++ conditionsFrom (driveAfter .clock .released a) (driveAfter .data .released a) b :=
  conditionsFrom_append ..

/-- The condition a stretch makes, with its time (R140, R141). -/
def slotCondition (p : Params) (t : Nat) : Slot → List (Condition × Nat)
  | .start => [(.start, t + tLow p + p.halfHigh)]
  | .stop => [(.stop, t + tLow p + p.halfHigh)]
  | .driven _ => []
  | .sampled _ => []

/-- The conditions of a row of stretches. -/
def slotConditions (p : Params) (t : Nat) : List Slot → List (Condition × Nat)
  | [] => []
  | x :: rest => slotCondition p t x ++ slotConditions p (t + slotTime p x) rest

/-- Every stretch begins by driving CLOCK LOW, so its conditions do not depend on what was in force before it; a bit slot
makes none (R172). -/
theorem conditionsFrom_slotEvents (cd dd : Drive) (p : Params) (t : Nat) (d : Level) (x : Slot) :
    conditionsFrom cd dd (slotEvents p t d x) = slotCondition p t x := by
  cases d <;> cases x with
  | start => simp [slotEvents, drv, driveOf, conditionsFrom, conditionOf, driveAfter, slotCondition, Event.time]
  | stop => simp [slotEvents, drv, driveOf, conditionsFrom, conditionOf, driveAfter, slotCondition, Event.time]
  | sampled v => simp [slotEvents, conditionsFrom, conditionOf, slotCondition]
  | driven v =>
    cases v <;> cases hr : p.sendBitRelease <;>
      simp [slotEvents, drv, driveOf, conditionsFrom, conditionOf, driveAfter, slotCondition, hr]

theorem conditionsFrom_waveform (cd dd : Drive) (p : Params) (t : Nat) (d : Level) (xs : List Slot) :
    conditionsFrom cd dd (waveform p t d xs) = slotConditions p t xs := by
  induction xs generalizing cd dd t d with
  | nil => rfl
  | cons x xs ih => rw [waveform, conditionsFrom_append, conditionsFrom_slotEvents, ih]; rfl

/-- After a stretch the drives in force are the drives of the lines. -/
theorem driveAfter_slotEvents (s : State) (x : Slot) (d : Drive) (l : Line) (h : s.clockDir = .output) :
    driveAfter l d (slotEvents s.params s.now s.dataLvl x) = (s.afterSlot x).drive l := by
  cases l <;> cases x with
  | start => simp [slotEvents, driveAfter, State.drive, State.dir, State.lvl, State.afterSlot, slotLevel, driveOf, h]
  | stop => simp [slotEvents, driveAfter, State.drive, State.dir, State.lvl, State.afterSlot, slotLevel, driveOf, h]
  | sampled v => simp [slotEvents, driveAfter, State.drive, State.dir, State.lvl, State.afterSlot, driveOf, h]
  | driven v =>
    cases v <;> cases hr : s.params.sendBitRelease <;>
      simp [slotEvents, driveAfter, State.drive, State.dir, State.lvl, State.afterSlot, slotLevel, driveOf, drv,
        endClock, endDir, hr, h]

/-- The events of a stretch are ordered, and none lies outside it (R72). -/
theorem slotEvents_times (p : Params) (t : Nat) (d : Level) (x : Slot) :
    ((slotEvents p t d x).map Event.time).Pairwise (· ≤ ·) ∧
      ∀ e ∈ slotEvents p t d x, t ≤ e.time ∧ e.time ≤ t + slotTime p x := by
  cases x with
  | start => simp [slotEvents, Event.time, slotTime, tBit, tLow, tHigh]; omega
  | stop => simp [slotEvents, Event.time, slotTime, tBit, tLow, tHigh]; omega
  | sampled v => simp [slotEvents, Event.time, slotTime, tBit, tLow, tHigh]; omega
  | driven v =>
    cases hr : p.sendBitRelease <;> simp [slotEvents, Event.time, slotTime, tBit, tLow, tHigh, hr] <;> omega

/-! ## Rows of stretches -/

theorem slotConditions_append (p : Params) (t : Nat) (xs ys : List Slot) :
    slotConditions p t (xs ++ ys) =
      slotConditions p t xs ++ slotConditions p (t + (xs.map (slotTime p)).sum) ys := by
  induction xs generalizing t with
  | nil => simp [slotConditions]
  | cons x xs ih => simp [slotConditions, ih, Nat.add_assoc]

/-- Bit slots make no condition (R172). -/
theorem slotConditions_bits {xs : List Slot} (h : ∀ x ∈ xs, x.isBit) (p : Params) (t : Nat) :
    slotConditions p t xs = [] := by
  induction xs generalizing t with
  | nil => rfl
  | cons x xs ih =>
    have hx := h x (by simp)
    rw [slotConditions, ih fun y hy => h y (by simp [hy])]
    cases x <;> first | rfl | exact hx.elim

/-- A row without a STOP makes START conditions only (R141). -/
theorem slotConditions_open {xs : List Slot} (h : ∀ x ∈ xs, x.isOpen) (p : Params) (t : Nat) :
    ∀ c ∈ slotConditions p t xs, c.1 = .start := by
  induction xs generalizing t with
  | nil => simp [slotConditions]
  | cons x xs ih =>
    intro c hc
    rw [slotConditions, List.mem_append] at hc
    rcases hc with hc | hc
    · have hx := h x (by simp)
      cases x <;> simp [slotCondition] at hc
      · simp [hc]
      · exact hx.elim
    · exact ih (fun y hy => h y (by simp [hy])) _ c hc

/-- A row of stretches adds its conditions to those in TRACE. -/
theorem State.afterSlots_conditions (s : State) (xs : List Slot) :
    conditions (s.afterSlots xs).trace = conditions s.trace ++ slotConditions s.params s.now xs := by
  rw [State.afterSlots_trace, conditions_append, conditionsFrom_waveform]

/-- A row of stretches leaves the drives in force equal to the drives of the lines. -/
theorem State.afterSlots_driveAfter (s : State) (xs : List Slot) (l : Line) (h : s.clockDir = .output)
    (hd : driveAfter l .released s.trace = s.drive l) :
    driveAfter l .released (s.afterSlots xs).trace = (s.afterSlots xs).drive l := by
  induction xs generalizing s with
  | nil => exact hd
  | cons x xs ih =>
    refine ih (s.afterSlot x) h ?_
    show driveAfter l .released (s.trace ++ _) = _
    rw [driveAfter_append, driveAfter_slotEvents s x _ l h]

end Sys2Proof.Machine
end

