-- ==== Sys2Proof/Tests/Slice0.lean ====
section
/-! SUPPORT. The model's own tests. Expected values are those of spec/95_test_vectors.md (the vector's name stands in the
comment) or words written out from 30_encoding.md. -/

namespace Sys2Proof.Tests

open Sys2Proof.Machine

/-! ## States of the test vectors (95_test_vectors.md section 0) -/

/-- The example parameters: the default times, `ACK_LEVEL = LOW`, `DEV_ADDR7 = 0x68`, two initialisation values. -/
def testParams : Params where
  halfLow := 5
  halfHigh := 5
  tBuf := 5
  ackLevel := .low
  sendBitRelease := false
  devAddr7 := 0x68
  initStart := 0x00
  initValues := [0x12, 0x34]
  tensWidthUpper := #v[3, 2, 2, 1, 4]
  pinClock := 0
  pinData := 1
  hostBase := 0

/-- S0, with the given draws to come. -/
def s0 (env : List Level) : State := { State.resetWith testParams with env := env }

/-- SB. -/
def sb (env : List Level) : State :=
  { s0 env with clockDir := .output, clockLvl := .high, trace := [.drive 0 .clock .low, .drive 0 .clock .high] }

/-- ST. -/
def st (env : List Level) : State :=
  { sb env with
    dataDir := .output, bus := .addressed, now := 20
    trace := [.drive 0 .clock .low, .drive 0 .clock .high, .drive 0 .clock .low, .drive 0 .data .low,
      .drive 5 .data .high, .drive 10 .clock .high, .drive 15 .data .low] }

/-- ST8, its trace left out. -/
def st8 (env : List Level) : State := { st env with frame := 8, now := 180, trace := [] }

/-- SB after a transaction that was opened and closed (L1-3). -/
def closed : State :=
  { sb [] with
    dataDir := .output, dataLvl := .high, now := 45
    trace := [.drive 0 .clock .low, .drive 0 .clock .high, .drive 0 .clock .low, .drive 0 .data .low,
      .drive 5 .data .high, .drive 10 .clock .high, .drive 15 .data .low, .drive 20 .clock .low, .drive 20 .data .low,
      .drive 25 .data .low, .drive 30 .clock .high, .drive 35 .data .high] }

/-- A state in which a fault is recorded (X3). -/
def faulted : State := { s0 [] with fault := true, faultCode := 2, faultCmd := 0x2200 }

/-- What is asked of the next state, when there is one. -/
def after {α : Type} (o : Host.Outcome State Fault Refusal) (f : State → α) : Option α :=
  match o with
  | .next t => some (f t)
  | .fault _ => none
  | .refused _ => none

/-- The new events of a state since `s`. -/
def since (s t : State) : List Event := t.trace.drop s.trace.length

/-- The levels of a byte on DATA, bit 7 first. -/
def levels (b : Byte) : List Level := (bitsMsbFirst b)

/-! ## WellFormed refuses what R88 calls an error -/

theorem test_bcd_range : ¬ WellFormed (.bcd 8 0x00) ∧ WellFormed (.bcd 7 0xFF) := by decide

theorem test_delay_range : ¬ WellFormed (.delay 4096) ∧ WellFormed (.delay 4095) := by decide

theorem test_readblk_range :
    ¬ WellFormed (.readblk 0x00 0) ∧ ¬ WellFormed (.readblk 0x00 9) ∧ WellFormed (.readblk 0xFF 8) := by decide

theorem test_assembler_refuses_ranges : assembleLine "bcd 8, 0" = none ∧ assembleLine "delay 4096" = none ∧
    assembleLine "readblk 0, 9" = none ∧ assembleLine "send 256" = none ∧ assembleLine "stop 1" = none := by decide

/-! ## Decoding: words written out from the formats of R82 and the map of R84 -/

theorem test_decode_bcd : decode 0b0000_1_010_00100011 = .ok (.bcd 2 0x23) := by decide

theorem test_decode_setdir : decode 0b0001_00_1_1_00000000 = .ok (.setdir .data .output) := by decide

theorem test_decode_setlvl : decode 0b0010_00_1_0_00000000 = .ok (.setlvl .clock .high) := by decide

theorem test_decode_readlvl : decode 0b0011_000_1_00000000 = .ok (.readlvl .data) := by decide

theorem test_decode_delay : decode 0b0100_111111111111 = .ok (.delay 4095) := by decide

theorem test_decode_start : decode 0b0101_000000000000 = .ok .start := by decide

theorem test_decode_stop : decode 0b0110_000000000000 = .ok .stop := by decide

theorem test_decode_sendbit : decode 0b0111_00000000000_1 = .ok (.sendbit true) := by decide

theorem test_decode_recvbit : decode 0b1000_000000000000 = .ok .recvbit := by decide

theorem test_decode_sendbyte : decode 0b1001_0000_10100101 = .ok (.sendbyte 0xA5) := by decide

theorem test_decode_recvbyte : decode 0b1010_000000000000 = .ok .recvbyte := by decide

theorem test_decode_sendack : decode 0b1011_00000000000_1 = .ok (.sendack .nack) := by decide

theorem test_decode_recvack : decode 0b1100_000000000000 = .ok .recvack := by decide

theorem test_decode_send : decode 0b1101_0000_11010000 = .ok (.send 0xD0) := by decide

theorem test_decode_recv : decode 0b1110_000_1_00000000 = .ok (.recv .nack) := by decide

theorem test_decode_initp : decode 0b1111_000000000000 = .ok .initp := by decide

theorem test_decode_readblk : decode 0b1111_1_010_00000111 = .ok (.readblk 0x07 3) := by decide

/-- The illegal words of 2.1. -/
theorem test_decode_illegal : ([0x0000, 0x07FF, 0x1400, 0x1001, 0x3200, 0x5001, 0x7002, 0x9100, 0xA001, 0xB002, 0xC100,
    0xD1D0, 0xE001, 0xE200, 0xF001, 0xF100, 0xF700, 0xF7FF].filterMap fun w => (decode w).toOption) = [] := by decide

/-- R89, R90. -/
theorem test_assembler : assembleLine "  businit ; set up" = some [0x1200, 0x2200] ∧
    assembleLine "readblk 0x07, 1" = some [0xF807] ∧ assembleLine "recv nack" = some [0xE100] ∧
    assembleLine "nop" = some [0x4000] ∧ assembleLine "rstart" = some [0x5000] ∧
    assembleLine "bcd 0, 0x59" = some [0x0859] := by decide

/-! ## Signal Driver -/

/-- D1. -/
theorem test_setdir : after (exec (.setdir .clock .output) (s0 [])) (fun t => (t.clockDir, t.trace, t.status)) =
    some (.output, [.drive 0 .clock .low], 0x00) := by decide +kernel

/-- D4: no change of DATA's direction under a HIGH CLOCK. -/
theorem test_setdir_clock_high : after (exec (.setdir .data .output) (sb [])) (fun t => (t.dataDir, t.faultCode)) =
    some (.input, 3) := by decide +kernel

/-- D6, its fourth word. -/
theorem test_setlvl_spurious :
    after (exec (.setlvl .data .high) { sb [] with dataDir := .output }) (fun t => (t.dataLvl, t.faultCode)) =
      some (.low, 6) := by decide +kernel

/-- D10: the bus-state check comes first. -/
theorem test_setlvl_in_transaction : after (exec (.setlvl .data .high) (st [])) (fun t => (t.faultCode, t.status)) =
    some (7, 0x84) := by decide +kernel

/-- D11. -/
theorem test_readlvl_driven :
    after (exec (.readlvl .clock) (sb [.low])) (fun t => (t.result0, since (sb []) t, t.env)) =
      some (0x01, [.sample 0 .clock .high], [.low]) := by decide +kernel

/-- D12, its first word. -/
theorem test_readlvl_released : after (exec (.readlvl .data) (s0 [.high, .low])) (fun t => (t.result0, t.env)) =
    some (0x01, [.low]) := by decide +kernel

/-- D14. -/
theorem test_delay : after (exec (.delay 5) { s0 [] with now := 100 }) (fun t => (t.now, t.trace)) =
    some (105, []) := by decide +kernel

/-! ## Conditions -/

/-- C1. -/
theorem test_start : after (exec .start (sb [])) (fun t => (since (sb []) t, t.now, t.status)) =
    some ([.drive 0 .clock .low, .drive 0 .data .low, .drive 5 .data .high, .drive 10 .clock .high,
      .drive 15 .data .low], 20, 0x04) := by decide +kernel

/-- C6: a START in the middle of a byte. -/
theorem test_start_mid_byte : after (exec .start { st [] with frame := 1 }) (fun t => (t.faultCode, t.status)) =
    some (5, 0x8C) := by decide +kernel

/-- C4. -/
theorem test_stop : after (exec .stop (st [])) (fun t => (since (st []) t, t.now, t.status)) =
    some ([.drive 20 .clock .low, .drive 20 .data .low, .drive 25 .data .low, .drive 30 .clock .high,
      .drive 35 .data .high], 45, 0x00) := by decide +kernel

/-- C5. -/
theorem test_stop_idle : after (exec .stop (sb [])) (fun t => t.faultCode) = some 4 := by decide +kernel

/-- L1-3: the conditions an observer finds. -/
theorem test_conditions : conditions closed.trace = [(.start, 15), (.stop, 35)] := by decide +kernel

/-! ## Framer -/

/-- F1. -/
theorem test_sendbit : after (exec (.sendbit true) (st [])) (fun t => (since (st []) t, t.now, t.status)) =
    some ([.drive 20 .clock .low, .drive 20 .data .low, .drive 25 .data .high, .drive 30 .clock .high], 40, 0x0C) := by
  decide +kernel

/-- F2. -/
theorem test_sendbit_release :
    after (exec (.sendbit true) { st [] with params := { testParams with sendBitRelease := true } })
      (fun t => ((since (st []) t).drop 4, t.clockLvl, t.dataDir, t.dataLvl)) =
      some ([.drive 40 .clock .low, .drive 40 .data .released], .low, .input, .high) := by decide +kernel

/-- F3. -/
theorem test_recvbit : after (exec .recvbit (st [.high])) (fun t => (since (st []) t, t.result0, t.frame)) =
    some ([.drive 20 .clock .low, .drive 20 .data .released, .drive 30 .clock .high, .sample 35 .data .high], 0x01, 1)
      := by decide +kernel

/-- F4: the levels driven HALF_LOW after each slot begins. -/
theorem test_sendbyte : after (exec (.sendbyte 0xA5) (st [])) (fun t => ((since (st []) t).filter (fun e =>
      match e with | .drive n .data _ => n % 20 = 5 | _ => False), t.now, t.status)) =
    some ([.drive 25 .data .high, .drive 45 .data .low, .drive 65 .data .high, .drive 85 .data .low,
      .drive 105 .data .low, .drive 125 .data .high, .drive 145 .data .low, .drive 165 .data .high], 180, 0x44) := by
  decide +kernel

/-- F5. -/
theorem test_recvbyte :
    after (exec .recvbyte (st [.high, .low, .low, .high, .low, .low, .low, .low])) (fun t => (t.result0, t.status)) =
      some (0x90, 0x44) := by decide +kernel

/-- F8. -/
theorem test_sendack :
    after (exec (.sendack .ack) (st8 [])) (fun t => (t.trace.drop 2, t.status)) =
      some ([.drive 185 .data .low, .drive 190 .clock .high], 0x04) := by decide +kernel

/-- F9. -/
theorem test_sendack_off_frame : after (exec (.sendack .ack) (st [])) (fun t => t.faultCode) = some 5 := by decide +kernel

/-- F6. -/
theorem test_recvack : after (exec .recvack (st8 [.high])) (fun t => (t.result0, t.now, t.status)) =
    some (0x01, 200, 0x05) := by decide +kernel

/-- F18: RECVACK does not write FAIL. -/
theorem test_recvack_keeps_fail :
    after (exec .recvack { st8 [.low] with nack := true, fail := true }) (fun t => (t.nack, t.fail)) =
      some (false, true) := by decide +kernel

/-- F12. -/
theorem test_send_nack : after (exec (.send 0xD0) (st [.high])) (fun t => (t.now, t.status)) = some (200, 0x07) := by
  decide +kernel

/-- L1-4: the end of the trace of the ACK case. -/
theorem test_send_ack : after (exec (.send 0xD0) (st [.low])) (fun t => ((since (st []) t).drop 28, t.status)) =
    some ([.drive 160 .clock .low, .drive 160 .data .low, .drive 165 .data .low, .drive 170 .clock .high,
      .drive 180 .clock .low, .drive 180 .data .released, .drive 190 .clock .high, .sample 195 .data .low], 0x04) := by
  decide +kernel

/-- F14. -/
theorem test_recv : after (exec (.recv .nack) (st [.low, .high, .low, .high, .high, .low, .low, .high]))
      (fun t => (t.result0, (since (st []) t).drop 34, t.now, t.status)) =
    some (0x59, [.drive 185 .data .high, .drive 190 .clock .high], 200, 0x04) := by decide +kernel

/-! ## Sequencer -/

/-- L1-7, its second row. -/
theorem test_initp_nack : after (exec .initp (sb [.low, .high])) (fun t => (conditions t.trace, t.now, t.status)) =
    some ([(.start, 15), (.stop, 395)], 405, 0x03) := by decide +kernel

/-- L1-7, its last row. -/
theorem test_initp : after (exec .initp (sb [.low, .low, .low, .low])) (fun t => (conditions t.trace, t.now, t.status))
    = some ([(.start, 15), (.stop, 755)], 765, 0x00) := by decide +kernel

/-- Q4, with b = 0x59. -/
theorem test_readblk :
    after (exec (.readblk 0x07 1) (sb [.low, .low, .low, .low, .high, .low, .high, .high, .low, .low, .high]))
      (fun t => (t.rbuf, t.now, t.status)) = some (#v[0x59, 0, 0, 0, 0, 0, 0, 0], 785, 0x00) := by decide +kernel

/-- Q3. -/
theorem test_readblk_nack :
    after (exec (.readblk 0x00 3) { sb [.low, .low, .high] with rbuf := Vector.replicate 8 0xAA })
      (fun t => (conditions t.trace, t.rbuf, t.now, t.status)) =
      some ([(.start, 15), (.start, 395), (.stop, 595)], Vector.replicate 8 0xAA, 605, 0x03) := by decide +kernel

/-- Q12. -/
theorem test_bcd : after (exec (.bcd 0 0xD9) (s0 [])) (fun t => (t.result0, t.result1)) = some (0x05, 0x09) := by decide +kernel

/-- Q16, with w = 2. -/
theorem test_bcd_upper : after (exec (.bcd 4 0x31) (s0 [])) (fun t => (t.result0, t.result1)) = some (0x03, 0x01) := by
  decide +kernel

/-! ## The host's accesses -/

/-- X1. -/
theorem test_illegal_command : after (step { s0 [] with pending := [.write 0 2 0x0000] })
    (fun t => (t.faultCode, t.faultCmd, t.status)) = some (1, 0x0000, 0x80) := by decide +kernel

/-- X3: words after the fault are dropped. -/
theorem test_dropped_command :
    after (step { faulted with pending := [.write 0 2 0x1200] }) (fun t => (t.clockDir, t.faultCode, t.faultCmd)) =
      some (.input, 2, 0x2200) := by decide +kernel

/-- X6: STATUS of F6 is read at index 1. -/
theorem test_read_status : after (step { st8 [] with nack := true, frame := 0, pending := [.read 1 1] })
    (fun t => t.replies) = some [{ index := 1, value := 0x0005 }] := by decide +kernel

/-- Z1, R48. -/
theorem test_reset : after (step { faulted with pending := [.reset] }) (fun t => t = s0 []) = some True := by
  simp [after, step, serveNext, serveAccess, faulted, s0, State.applyReset, State.resetWith]

/-- The placed command is the next one to run. -/
theorem test_fetch : after (step ((sb []).withFetchWord 16 0x5000)) (fun t => (t.now, t.cmd)) = some (20, 0x0000) := by
  decide +kernel

/-! ## Witnesses: for each statement with hypotheses, states and operands that meet all of them, clause by clause -/

theorem witness_DecodeOfEncodeIsTheCommand : WellFormed (.bcd 7 0xFF) ∧ WellFormed (.delay 4095) ∧
    WellFormed (.readblk 0x00 1) ∧ WellFormed (.readblk 0xFF 8) ∧ WellFormed .initp := by decide

theorem witness_EncodeOfDecodeIsTheWord : decode 0xFFFF = .ok (.readblk 0xFF 8) ∧ decode 0x0800 = .ok (.bcd 0 0x00) :=
  by decide

theorem witness_CommandEntryDropsFaultsOrRuns :
    (∃ s : State, s.pending = [.write 0 2 0x1200] ∧ s.fault = true) ∧
    (∃ s : State, s.pending = [.write 0 2 0xF001] ∧ s.fault = false ∧ ∃ k, decode 0xF001 = .error k) ∧
    ∃ (s t : State) (i : Instr), s.pending = [.write 0 2 0x1200] ∧ s.fault = false ∧ decode 0x1200 = .ok i ∧
      exec i { s with pending := [], cmd := 0x1200 } = .next t :=
  ⟨⟨{ faulted with pending := [.write 0 2 0x1200] }, rfl, rfl⟩,
    ⟨{ s0 [] with pending := [.write 0 2 0xF001] }, rfl, rfl, _, rfl⟩,
    { s0 [] with pending := [.write 0 2 0x1200] }, _, _, rfl, rfl, rfl, rfl⟩

theorem witness_StepRunsTheDecodedCommand : ∃ s : State, s.pending = [.write 0 2 0xFFFF, .reset] ∧ s.fault = false ∧
    decode 0xFFFF = .ok (.readblk 0xFF 8) :=
  ⟨{ sb [] with pending := [.write 0 2 0xFFFF, .reset] }, rfl, rfl, rfl⟩

/-- The clauses at the ends of the map's ranges: 0, 3, 8, 15, 255; a write next to CMD; both kinds of a wrong width. -/
theorem witness_HostAccessesFollowTheRegisterMap :
    (∀ a ∈ [0, 1, 2, 3, 4, 5, 7, 8, 15, 16, 255], ∃ s : State,
      s.pending = [.read (BitVec.ofNat 8 a) (if a = 0 ∨ a = 3 then 2 else 1)]) ∧
    (∃ s : State, s.pending = [.write 1 1 0x0001]) ∧ (∃ s : State, s.pending = [.write 3 2 0x0001]) ∧
    (∃ s : State, s.pending = [.read 0 1]) ∧ ∃ s : State, s.pending = [.write 1 2 0x0001] :=
  ⟨fun a _ => ⟨{ s0 [] with pending := [.read (BitVec.ofNat 8 a) (if a = 0 ∨ a = 3 then 2 else 1)] }, rfl⟩,
    ⟨{ s0 [] with pending := [.write 1 1 0x0001] }, rfl⟩, ⟨{ s0 [] with pending := [.write 3 2 0x0001] }, rfl⟩,
    ⟨{ s0 [] with pending := [.read 0 1] }, rfl⟩, ⟨{ s0 [] with pending := [.write 1 2 0x0001] }, rfl⟩⟩

theorem witness_ResetGivesEveryStateItsValue : ∃ s : State, s.pending = [.reset, .write 0 2 0x1200] ∧ s.fault = true :=
  ⟨{ faulted with pending := [.reset, .write 0 2 0x1200] }, rfl, rfl⟩

theorem witness_ResetKeepsTheEnvironment :
    (∃ s : State, s.pending = [.reset, .read 1 1]) ∧ ∃ s : State, s.pending = [] :=
  ⟨⟨{ st [] with pending := [.reset, .read 1 1] }, rfl⟩, ⟨st [], rfl⟩⟩

theorem witness_SetdirSetsOneDirection : (0x1300#16 &&& 0xFCFF#16 = 0x1000#16) ∧
    (∃ s : State, s.bus = .idle ∧ s.clockDir = .output ∧ s.clockLvl = .low ∧ Dir.output ≠ s.dataDir) ∧
    (∃ s : State, s.bus = .idle ∧ Dir.input = s.dataDir ∧ s.clockLvl = .high) ∧ (∃ s : State, s.bus = .addressed) ∧
    ∃ s : State, s.bus = .idle ∧ Dir.output ≠ s.dataDir ∧ ¬ (s.clockDir = .output ∧ s.clockLvl = .low) :=
  ⟨by decide, ⟨{ sb [] with clockLvl := .low }, by decide⟩, ⟨sb [], by decide⟩, ⟨st [], rfl⟩, ⟨sb [], by decide⟩⟩

theorem witness_SetlvlSetsOneLevel : (0x2300#16 &&& 0xFCFF#16 = 0x2000#16) ∧
    (∃ s : State, s.bus = .idle ∧ s.clockDir = .output) ∧
    (∃ s : State, s.bus = .idle ∧ s.dataDir = .output ∧ Level.high ≠ s.dataLvl ∧ s.clockDir = .output ∧
      s.clockLvl = .low) ∧
    (∃ s : State, s.bus = .addressed) ∧
    (∃ s : State, s.bus = .idle ∧ s.dataDir = .output ∧ Level.high ≠ s.dataLvl ∧
      ¬ (s.clockDir = .output ∧ s.clockLvl = .low)) ∧
    ∃ s : State, s.bus = .idle ∧ s.dir .clock = .input ∧ s.dir .data = .input :=
  ⟨by decide, ⟨sb [], by decide⟩, ⟨{ sb [] with clockLvl := .low, dataDir := .output }, by decide⟩, ⟨st [], rfl⟩,
    ⟨{ sb [] with dataDir := .output }, by decide⟩, ⟨s0 [], by decide⟩⟩

theorem witness_ReadlvlReportsTheObservedLevel : (0x3100#16 &&& 0xFEFF#16 = 0x3000#16) ∧
    (∃ s : State, s.dir .clock = .output ∧ s.dir .data = .output) ∧
    ∃ s : State, s.dir .clock = .input ∧ s.dir .data = .input :=
  ⟨by decide, ⟨st [], by decide⟩, ⟨s0 [], by decide⟩⟩

theorem witness_DelayOnlyAdvancesNow :
    (0x4FFF#16 &&& 0xF000#16 = 0x4000#16) ∧ (0x4000#16 &&& 0xF000#16 = 0x4000#16) := by decide

theorem witness_BcdSplitsTheDigits : (0x0FFF#16 &&& 0xF800#16 = 0x0800#16) ∧ (0 ≤ 7 ∧ 2 ≤ 7 ∧ 3 ≤ 7 ∧ 7 ≤ 7) := by
  decide

theorem witness_StartOpensOrRepeats : (∃ s : State, s.bus = .idle ∧ s.frame = 0 ∧ s.clockDir = .output) ∧
    (∃ s : State, s.bus = .addressed ∧ s.frame = 0 ∧ s.clockDir = .output) ∧ (∃ s : State, s.frame = 8) ∧
    ∃ s : State, s.frame = 0 ∧ s.clockDir = .input :=
  ⟨⟨sb [], by decide⟩, ⟨st [], by decide⟩, ⟨st8 [], rfl⟩, ⟨s0 [], by decide⟩⟩

theorem witness_StopClosesTheTransaction :
    (∃ s : State, s.bus = .addressed ∧ s.frame = 0 ∧ s.clockDir = .output) ∧ (∃ s : State, s.bus = .idle) ∧
    ∃ s : State, s.bus = .addressed ∧ s.frame = 8 :=
  ⟨⟨st [], by decide⟩, ⟨sb [], rfl⟩, ⟨st8 [], by decide⟩⟩

theorem witness_SendbitDrivesOneSlot : (0x7001#16 &&& 0xFFFE#16 = 0x7000#16) ∧ (∃ s : State, s.bus = .idle) ∧
    (∃ s : State, s.bus = .addressed ∧ s.clockDir = .output ∧ s.frame = 8 ∧ s.params.sendBitRelease = false) ∧
    ∃ s : State, s.bus = .addressed ∧ s.clockDir = .output ∧ s.params.sendBitRelease = true :=
  ⟨by decide, ⟨sb [], rfl⟩, ⟨st8 [], by decide⟩,
    ⟨{ st [] with params := { testParams with sendBitRelease := true } }, by decide⟩⟩

theorem witness_RecvbitSamplesOneSlot :
    (∃ s : State, s.bus = .idle) ∧ ∃ s : State, s.bus = .addressed ∧ s.clockDir = .output ∧ s.frame = 8 :=
  ⟨⟨sb [], rfl⟩, ⟨st8 [], by decide⟩⟩

/-- The three clauses of SENDBYTE, and of RECVBYTE, SEND and RECV, which have the same hypotheses; the words at the ends
of their fields. -/
theorem witness_SendbyteDrivesEightSlots : (0x90FF#16 &&& 0xFF00#16 = 0x9000#16) ∧ (∃ s : State, s.bus = .idle) ∧
    (∃ s : State, s.bus = .addressed ∧ s.frame = 8) ∧
    ∃ s : State, s.bus = .addressed ∧ s.frame = 0 ∧ s.clockDir = .output :=
  ⟨by decide, ⟨sb [], rfl⟩, ⟨st8 [], by decide⟩, ⟨st [], by decide⟩⟩

theorem witness_SendbyteDrivesBitsInOrder : ∃ s : State, s.bus = .addressed ∧ s.frame = 0 ∧ s.clockDir = .output ∧
    (1 ≤ 1 ∧ 8 ≤ 8) := ⟨st [], by decide⟩

theorem witness_RecvbyteCollectsEightDraws : (∃ s : State, s.bus = .idle) ∧
    (∃ s : State, s.bus = .addressed ∧ s.frame ≠ 0) ∧
    ∃ s : State, s.bus = .addressed ∧ s.frame = 0 ∧ s.clockDir = .output :=
  ⟨⟨sb [], rfl⟩, ⟨st8 [], by decide⟩, ⟨st [], by decide⟩⟩

theorem witness_RecvbyteReplaysEveryByte :
    ∃ s : State, s.bus = .addressed ∧ s.frame = 0 ∧ s.clockDir = .output ∧
      s.env = ([7, 6, 5, 4, 3, 2, 1, 0].map fun k => if (0x59#8).getLsbD k then .high else .low) ++ [Level.high] :=
  ⟨st [.low, .high, .low, .high, .high, .low, .low, .high, .high], by decide⟩

/-- The clauses of SENDACK and of RECVACK. -/
theorem witness_SendackDrivesTheNinthSlot : (0xB001#16 &&& 0xFFFE#16 = 0xB000#16) ∧ (∃ s : State, s.bus = .idle) ∧
    (∃ s : State, s.bus = .addressed ∧ s.frame = 7) ∧
    ∃ s : State, s.bus = .addressed ∧ s.frame = 8 ∧ s.clockDir = .output :=
  ⟨by decide, ⟨sb [], rfl⟩, ⟨{ st8 [] with frame := 7 }, by decide⟩, ⟨st8 [], by decide⟩⟩

theorem witness_RecvackReportsTheAcknowledgement : (∃ s : State, s.bus = .idle) ∧
    (∃ s : State, s.bus = .addressed ∧ s.frame = 0) ∧
    ∃ s : State, s.bus = .addressed ∧ s.frame = 8 ∧ s.clockDir = .output :=
  ⟨⟨sb [], rfl⟩, ⟨st [], by decide⟩, ⟨st8 [], by decide⟩⟩

theorem witness_SendFailsExactlyOnNack : (0xD0FF#16 &&& 0xFF00#16 = 0xD000#16) ∧ (∃ s : State, s.bus = .idle) ∧
    (∃ s : State, s.bus = .addressed ∧ s.frame = 8) ∧
    ∃ s : State, s.bus = .addressed ∧ s.frame = 0 ∧ s.clockDir = .output :=
  ⟨by decide, ⟨sb [], rfl⟩, ⟨st8 [], by decide⟩, ⟨st [], by decide⟩⟩

theorem witness_RecvReadsAByteAndAnswers : (0xE100#16 &&& 0xFEFF#16 = 0xE000#16) ∧ (∃ s : State, s.bus = .idle) ∧
    (∃ s : State, s.bus = .addressed ∧ s.frame = 8) ∧
    ∃ s : State, s.bus = .addressed ∧ s.frame = 0 ∧ s.clockDir = .output :=
  ⟨by decide, ⟨sb [], rfl⟩, ⟨st8 [], by decide⟩, ⟨st [], by decide⟩⟩

theorem witness_InitpWritesTheWholeBlock : ∃ s : State, s.bus = .idle ∧ s.clockDir = .output ∧
    ∀ k, k < 2 + s.params.initValues.length → s.ackAt k = .ack :=
  ⟨sb [.low, .low, .low, .low], rfl, rfl, by decide⟩

/-- The first NACK at the first byte and at the last one. -/
theorem witness_InitpStopsAtTheFirstNack : ∀ k ∈ [0, 3], ∃ s : State, s.bus = .idle ∧ s.clockDir = .output ∧
    k < 2 + s.params.initValues.length ∧ (∀ j, j < k → s.ackAt j = .ack) ∧ s.ackAt k = .nack := by
  intro k hk
  refine ⟨sb (List.replicate k .low ++ [.high]), rfl, rfl, ?_⟩
  fin_cases hk
  · exact ⟨by decide, by decide, by decide⟩
  · exact ⟨by decide, by decide, by decide⟩

theorem witness_ReadblkReadsTheBlock : (0xFF00#16 &&& 0xF800#16 = 0xF800#16) ∧ (1 ≤ 1 ∧ 1 ≤ 8 ∧ 1 ≤ 8 ∧ 8 ≤ 8) ∧
    ∃ s : State, s.bus = .idle ∧ s.clockDir = .output ∧ s.ackAt 0 = .ack ∧ s.ackAt 1 = .ack ∧ s.ackAt 2 = .ack :=
  ⟨by decide, by decide, sb [.low, .low, .low], by decide⟩

theorem witness_ReadblkFailureKeepsRbuf :
    (∃ s : State, s.bus = .idle ∧ s.clockDir = .output ∧ s.ackAt 0 = .nack) ∧
    (∃ s : State, s.bus = .idle ∧ s.clockDir = .output ∧ s.ackAt 0 = .ack ∧ s.ackAt 1 = .nack) ∧
    ∃ s : State, s.bus = .idle ∧ s.clockDir = .output ∧ s.ackAt 0 = .ack ∧ s.ackAt 1 = .ack ∧ s.ackAt 2 = .nack :=
  ⟨⟨sb [.high], by decide⟩, ⟨sb [.low, .high], by decide⟩, ⟨sb [.low, .low, .high], by decide⟩⟩

theorem witness_SequencerChecksComeFirst :
    (∃ s : State, s.bus = .addressed) ∧ ∃ s : State, s.bus = .idle ∧ s.clockDir = .input :=
  ⟨⟨st [], rfl⟩, ⟨s0 [], by decide⟩⟩

theorem witness_FaultsChangeOnlyTheirRecord :
    ∃ (i : Instr) (s t : State), s.fault = false ∧ exec i s = .next t ∧ t.fault = true :=
  ⟨.stop, sb [], _, rfl, rfl, rfl⟩

theorem witness_FirstFaultIsHeldUntilReset :
    (∃ s t : State, s.pending = [.write 0 2 0x6000] ∧ step s = .next t ∧ s.fault = true) ∧
    (∃ s t : State, s.pending = [.write 0 2 0x6000] ∧ step s = .next t ∧ s.fault = false ∧ t.fault = true) ∧
    ∃ s t : State, s.pending = [.write 0 2 0x4000] ∧ step s = .next t ∧ s.fault = false ∧ t.fault = false :=
  ⟨⟨{ faulted with pending := [.write 0 2 0x6000] }, _, rfl, rfl, rfl⟩,
    ⟨{ sb [] with pending := [.write 0 2 0x6000] }, _, rfl, rfl, rfl, rfl⟩,
    ⟨{ sb [] with pending := [.write 0 2 0x4000] }, _, rfl, rfl, rfl, rfl⟩⟩

theorem witness_OnlyAcknowledgedCommandsWriteNack :
    ∃ s t : State, exec .recvack s = .next t ∧ t.nack ≠ s.nack :=
  ⟨st8 [.high], _, rfl, by decide⟩

theorem witness_OnlyTransfersWriteFail : after (exec (.send 0x00) (st [.high])) (fun t => t.fail ≠ (st []).fail) =
    some True := by
  have h : after (exec (.send 0x00) (st [.high])) (fun t => t.fail) = some true := by decide +kernel
  cases ht : exec (.send 0x00) (st [.high]) with
  | next t =>
    rw [ht] at h
    simp only [after, Option.some.injEq] at h
    simp [after, h, st, sb, s0, State.resetWith]
  | fault r => exact nomatch r
  | refused r => rw [ht] at h; simp [after] at h

theorem witness_ResultsAreWrittenOnlyByTheirCommands :
    (∃ s t : State, exec (.readlvl .clock) s = .next t ∧ t.result0 ≠ s.result0) ∧
    ∃ s t : State, exec (.bcd 0 0x59) s = .next t ∧ t.result1 ≠ s.result1 :=
  ⟨⟨sb [], _, rfl, by decide⟩, ⟨s0 [], _, rfl, by decide⟩⟩

/-- RBUF, written by a READBLK that succeeds (Q4). -/
theorem witness_ResultsAreWrittenOnlyByTheirCommands_rbuf :
    after (exec (.readblk 0x07 1) (sb [.low, .low, .low, .low, .high, .low, .high, .high, .low, .low, .high]))
      (fun t => t.rbuf[0]) = some 0x59 := by decide +kernel

theorem witness_OnlyStartAndStopMoveTheBus :
    (∃ s t : State, exec .start s = .next t ∧ t.bus ≠ s.bus ∧ s.frame = 0 ∧ s.clockDir = .output) ∧
    ∃ s t : State, exec .stop s = .next t ∧ t.bus ≠ s.bus ∧ s.bus = .addressed ∧ s.frame = 0 ∧ s.clockDir = .output :=
  ⟨⟨sb [], _, rfl, by decide⟩, ⟨st [], _, rfl, by decide⟩⟩

theorem witness_SignalDriverLeavesTheEngineAlone :
    (∃ t, exec (.setdir .clock .output) (sb []) = .next t) ∧ (∃ t, exec (.setlvl .clock .low) (sb []) = .next t) ∧
    (∃ t, exec (.readlvl .data) (st []) = .next t) ∧ ∃ t, exec (.delay 4095) (st []) = .next t :=
  ⟨⟨_, rfl⟩, ⟨_, rfl⟩, ⟨_, rfl⟩, ⟨_, rfl⟩⟩

theorem witness_TimeAndTraceOnlyGrow : ∃ s t : State, step s = .next t ∧ ∀ rest, s.pending ≠ .reset :: rest :=
  ⟨{ sb [] with pending := [.write 0 2 0x5000] }, _, rfl, by simp⟩

theorem witness_CommandsKeepTheirTimeBudget : ∃ t, exec .start (sb []) = .next t ∧ t.now = 20 := ⟨_, rfl, by decide⟩

/-! ### The invariants, in a state with a command still to run -/

theorem sb_driveInv (p : List HostAccess) : ({ sb [] with pending := p } : State).DriveInv := ⟨rfl, rfl⟩

theorem st_driveInv (p : List HostAccess) : ({ st [] with pending := p } : State).DriveInv := ⟨rfl, rfl⟩

theorem closed_driveInv (p : List HostAccess) : ({ closed with pending := p } : State).DriveInv := ⟨rfl, rfl⟩

theorem witness_OnlyTheEngineMakesConditions : ∃ s t : State, s.DriveInv ∧ exec .start s = .next t ∧
    conditions t.trace ≠ conditions s.trace :=
  ⟨{ sb [] with pending := [] }, _, sb_driveInv [], rfl, by decide⟩

theorem witness_SequencesCloseWithOneStop :
    (1 ≤ 8 ∧ 8 ≤ 8) ∧ ∃ s : State, s.bus = .idle ∧ s.clockDir = .output ∧ ∃ t, exec .initp s = .next t := by
  refine ⟨by decide, sb [.high], rfl, rfl, ?_⟩
  have h : after (exec .initp (sb [.high])) (fun t => t.bus) = some .idle := by decide +kernel
  cases ht : exec .initp (sb [.high]) with
  | next t => exact ⟨t, rfl⟩
  | fault r => exact nomatch r
  | refused r => rw [ht] at h; simp [after] at h

theorem witness_StepKeepsTheBusInvariant : ∃ s t : State, s.BusInv ∧ step s = .next t :=
  ⟨{ st [] with pending := [.write 0 2 0x6000] }, _, ⟨by decide, by decide⟩, rfl⟩

theorem witness_StepKeepsTheFaultRecord : ∃ s t : State, s.RecordInv ∧ step s = .next t :=
  ⟨{ sb [] with pending := [.write 0 2 0x6000] }, _, ⟨fun _ => ⟨rfl, rfl⟩, (fun h => nomatch h), rfl⟩, rfl⟩

theorem witness_StepKeepsEventsInOrder : ∃ s t : State, s.TimeInv ∧ step s = .next t :=
  ⟨{ st [] with pending := [.write 0 2 0x6000] }, _, ⟨by decide, by decide⟩, rfl⟩

theorem witness_StepKeepsTheTraceTrue : ∃ s t : State, s.DriveInv ∧ step s = .next t :=
  ⟨{ st [] with pending := [.write 0 2 0x6000] }, _, st_driveInv _, rfl⟩

theorem witness_StepKeepsTransactionsNested : ∃ s t : State, s.DriveInv ∧ s.NestInv ∧ step s = .next t :=
  ⟨{ st [] with pending := [.write 0 2 0x6000] }, _, st_driveInv _, ⟨by decide, by decide⟩, rfl⟩

/-- A transaction is closed and the next START is still to run (C8). -/
theorem witness_StepKeepsTheBusFreeTime : ∃ s t : State, s.DriveInv ∧ s.FreeTimeInv ∧ step s = .next t := by
  refine ⟨{ closed with pending := [.write 0 2 0x5000] }, _, closed_driveInv _, ⟨?_, ?_⟩, rfl⟩
  · show gapsKept _ (conditions closed.trace)
    rw [test_conditions]
    simp [gapsKept]
  · intro ts h
    change (conditions closed.trace).getLast? = some (.stop, ts) at h
    rw [test_conditions] at h
    obtain rfl : 35 = ts := by simpa using h
    decide

end Sys2Proof.Tests
end

section
/-! PROOF. The derived constants of R9, each by its own lemma. -/

namespace Sys2Proof.Machine

theorem flipLevel_eq_ite (v : Level) : flipLevel v = if v = .low then .high else .low := by
  cases v with
  | low => rfl
  | high => rfl

/-- The device address has 7 bits, so a bit appended below it still fits a byte. -/
theorem devAddr7_appendBit_toNat (p : Params) {b : Nat} (hb : b < 2) :
    (BitVec.ofNat 8 (p.devAddr7.toNat * 2 + b)).toNat = p.devAddr7.toNat * 2 + b := by
  have haddr : p.devAddr7.toNat < 2 ^ 7 := p.devAddr7.isLt
  rw [BitVec.toNat_ofNat]
  exact Nat.mod_eq_of_lt (by omega)

@[simp] theorem devW_toNat (p : Params) : (devW p).toNat = p.devAddr7.toNat * 2 :=
  devAddr7_appendBit_toNat p (b := 0) (by decide)

@[simp] theorem devR_toNat (p : Params) : (devR p).toNat = p.devAddr7.toNat * 2 + 1 :=
  devAddr7_appendBit_toNat p (b := 1) (by decide)

/-- Settles O6: the times are R9's by definition; the level and the two address bytes by the lemmas above. -/
theorem derivedConstantsAreAsDefined : Obligations.DerivedConstantsAreAsDefined := by
  unfold Obligations.DerivedConstantsAreAsDefined
  intro p
  exact ⟨rfl, rfl, rfl, flipLevel_eq_ite p.ackLevel, devW_toNat p, devR_toNat p⟩

end Sys2Proof.Machine
end

section
/-! PROOF. What a command that runs leaves unchanged: one lemma per shape of effect (one line driven, a row of bit slots,
a whole transaction), and from these one lemma over all commands. -/

namespace Sys2Proof.Machine

/-! ## Two states compared -/

/-- The fault record (R38) of `t` is that of `s`. -/
structure State.SameRecord (s t : State) : Prop where
  fault : t.fault = s.fault
  faultCode : t.faultCode = s.faultCode
  faultCmd : t.faultCmd = s.faultCmd

/-- From `s` to `t` time has not fallen, TRACE has grown at its end at most, and the parameters are the same (R31, R32,
R45). -/
structure State.Grows (s t : State) : Prop where
  params : t.params = s.params
  now : s.now ≤ t.now
  trace : ∃ new, t.trace = s.trace ++ new

theorem State.Grows.refl (s : State) : s.Grows s := ⟨rfl, Nat.le_refl _, [], by simp⟩

theorem State.Grows.trans {s t u : State} (hst : s.Grows t) (htu : t.Grows u) : s.Grows u := by
  obtain ⟨xs, hxs⟩ := hst.trace
  obtain ⟨ys, hys⟩ := htu.trace
  exact ⟨htu.params.trans hst.params, hst.now.trans htu.now, xs ++ ys, by rw [hys, hxs, List.append_assoc]⟩

/-- The drives in force at the end of TRACE are those of the lines, said of both lines at once. -/
theorem State.driveInv_iff {s : State} : s.DriveInv ↔ ∀ l, driveAfter l .released s.trace = s.drive l where
  mp h l := by
    cases l with
    | clock => exact h.clock
    | data => exact h.data
  mpr h := ⟨h .clock, h .data⟩

/-- The agreement of TRACE with the lines depends on nothing but TRACE and the registers of the lines. -/
theorem State.DriveInv.of_lines {s t : State} (hs : s.DriveInv) (hcd : t.clockDir = s.clockDir)
    (hcl : t.clockLvl = s.clockLvl) (hdd : t.dataDir = s.dataDir) (hdl : t.dataLvl = s.dataLvl)
    (ht : t.trace = s.trace) : t.DriveInv where
  clock := by simpa only [State.drive, State.dir, State.lvl, hcd, hcl, ht] using hs.clock
  data := by simpa only [State.drive, State.dir, State.lvl, hdd, hdl, ht] using hs.data

/-! ## SETDIR and SETLVL: one line is driven -/

/-- The line `l` was driven, outside a transaction: its registers may have changed, one Drive event tells its new drive,
and nothing else is touched (R110, R111). -/
structure DroveLine (l : Line) (s t : State) : Prop where
  idle : s.bus = .idle
  others : ∀ m, m ≠ l → t.drive m = s.drive m
  eq : t = { s with
    clockDir := t.clockDir
    clockLvl := t.clockLvl
    dataDir := t.dataDir
    dataLvl := t.dataLvl
    trace := s.trace ++ [.drive s.now l (t.drive l)] }

theorem Ran.droveLine_setdir {l : Line} {d : Dir} {s t : State} (h : Ran (.setdir l d) s t) : DroveLine l s t := by
  obtain ⟨hb, -, rfl⟩ := h
  cases l with
  | clock => exact ⟨hb, fun | .data, _ => rfl | .clock, hm => absurd rfl hm, rfl⟩
  | data => exact ⟨hb, fun | .clock, _ => rfl | .data, hm => absurd rfl hm, rfl⟩

theorem Ran.droveLine_setlvl {l : Line} {v : Level} {s t : State} (h : Ran (.setlvl l v) s t) : DroveLine l s t := by
  obtain ⟨hb, -, -, rfl⟩ := h
  cases l with
  | clock => exact ⟨hb, fun | .data, _ => rfl | .clock, hm => absurd rfl hm, rfl⟩
  | data => exact ⟨hb, fun | .clock, _ => rfl | .data, hm => absurd rfl hm, rfl⟩

section
variable {l : Line} {s t : State}

theorem DroveLine.bus (h : DroveLine l s t) : t.bus = s.bus := by rw [h.eq]

theorem DroveLine.frame (h : DroveLine l s t) : t.frame = s.frame := by rw [h.eq]

theorem DroveLine.nack (h : DroveLine l s t) : t.nack = s.nack := by rw [h.eq]

theorem DroveLine.fail (h : DroveLine l s t) : t.fail = s.fail := by rw [h.eq]

theorem DroveLine.result0 (h : DroveLine l s t) : t.result0 = s.result0 := by rw [h.eq]

theorem DroveLine.result1 (h : DroveLine l s t) : t.result1 = s.result1 := by rw [h.eq]

theorem DroveLine.rbuf (h : DroveLine l s t) : t.rbuf = s.rbuf := by rw [h.eq]

theorem DroveLine.trace (h : DroveLine l s t) : t.trace = s.trace ++ [.drive s.now l (t.drive l)] :=
  congrArg State.trace h.eq

theorem DroveLine.sameRecord (h : DroveLine l s t) : s.SameRecord t := by rw [h.eq]; exact ⟨rfl, rfl, rfl⟩

theorem DroveLine.grows (h : DroveLine l s t) : s.Grows t where
  params := by rw [h.eq]
  now := by rw [h.eq]
  trace := ⟨_, h.trace⟩

/-- The Drive event tells the new drive of the line, and the other line keeps the drive it had. -/
theorem DroveLine.driveInv (h : DroveLine l s t) (hs : s.DriveInv) : t.DriveInv := by
  rw [State.driveInv_iff] at hs ⊢
  intro m
  rw [h.trace, driveAfter_append, hs m]
  obtain rfl | hm := eq_or_ne m l
  · simp [driveAfter]
  · simp [driveAfter, hm.symm, h.others m hm]

end

/-! ## The framer: a row of bit slots -/

theorem State.afterSlots_grows (s : State) (xs : List Slot) : s.Grows (s.afterSlots xs) where
  params := s.afterSlots_params xs
  now := by rw [State.afterSlots_now]; exact Nat.le_add_right ..
  trace := ⟨_, s.afterSlots_trace xs⟩

theorem State.afterSlots_sameRecord (s : State) (xs : List Slot) : s.SameRecord (s.afterSlots xs) :=
  ⟨s.afterSlots_fault xs, s.afterSlots_faultCode xs, s.afterSlots_faultCmd xs⟩

/-- A row of stretches writes into TRACE the drives that it puts on the lines. -/
theorem State.afterSlots_driveInv {s : State} (xs : List Slot) (hc : s.clockDir = .output) (hs : s.DriveInv) :
    (s.afterSlots xs).DriveInv :=
  State.driveInv_iff.2 fun l => s.afterSlots_driveAfter xs l hc (State.driveInv_iff.1 hs l)

section
variable {len : Nat} {s t : State}

theorem RanSlots.addressed (h : RanSlots len s t) : s.bus = .addressed := by
  obtain ⟨_, _, hb, -⟩ := h
  exact hb

theorem RanSlots.bus (h : RanSlots len s t) : t.bus = s.bus := by
  obtain ⟨_, _, -, -, -, -, ht⟩ := h
  rw [ht]
  simp

theorem RanSlots.clockDir (h : RanSlots len s t) : t.clockDir = .output := by
  obtain ⟨_, _, -, hc, -, -, ht⟩ := h
  rw [ht]
  simpa using hc

theorem RanSlots.result1 (h : RanSlots len s t) : t.result1 = s.result1 := by
  obtain ⟨_, _, -, -, -, -, ht⟩ := h
  rw [ht]
  simp

theorem RanSlots.rbuf (h : RanSlots len s t) : t.rbuf = s.rbuf := by
  obtain ⟨_, _, -, -, -, -, ht⟩ := h
  rw [ht]
  simp

theorem RanSlots.sameRecord (h : RanSlots len s t) : s.SameRecord t := by
  obtain ⟨xs, _, -, -, -, -, ht⟩ := h
  obtain ⟨hf, hcode, hcmd⟩ := s.afterSlots_sameRecord xs
  rw [ht]
  exact ⟨hf, hcode, hcmd⟩

theorem RanSlots.grows (h : RanSlots len s t) : s.Grows t := by
  obtain ⟨xs, _, -, -, -, -, ht⟩ := h
  obtain ⟨hp, hn, htr⟩ := s.afterSlots_grows xs
  rw [ht]
  exact ⟨hp, hn, htr⟩

theorem RanSlots.driveInv (h : RanSlots len s t) (hs : s.DriveInv) : t.DriveInv := by
  obtain ⟨xs, _, -, hc, -, -, ht⟩ := h
  rw [ht]
  exact (State.afterSlots_driveInv xs hc hs).of_lines rfl rfl rfl rfl rfl

end

/-! ## The sequencer: a whole transaction -/

section
variable {limit : Nat} {s t : State}

/-- A transaction is one row of stretches, its START and its STOP in it, that leaves FRAME as it was. -/
theorem RanTransaction.slots (h : RanTransaction limit s t) :
    ∃ ys n a, s.bus = .idle ∧ s.clockDir = .output ∧ (s.afterSlots ys).frame = s.frame ∧
      t = { ((s.afterSlots ys).afterDraws n).noteAck a with rbuf := t.rbuf } ∧ (a = .nack → t.rbuf = s.rbuf) := by
  obtain ⟨xs, n, a, hb, hc, -, -, hf, ht, hr⟩ := h
  have hframe : (s.afterSlots (.start :: xs ++ [.stop])).frame = s.frame :=
    keepsFrame_append (keepsFrame_start hf) (fun _ => rfl) s
  exact ⟨_, n, a, hb, hc, hframe, ht, hr⟩

theorem RanTransaction.idle (h : RanTransaction limit s t) : s.bus = .idle := by
  obtain ⟨_, _, _, hb, -⟩ := h
  exact hb

theorem RanTransaction.bus (h : RanTransaction limit s t) : t.bus = s.bus := by
  obtain ⟨ys, _, _, -, -, -, ht, -⟩ := h.slots
  rw [ht]
  exact s.afterSlots_bus ys

theorem RanTransaction.frame (h : RanTransaction limit s t) : t.frame = s.frame := by
  obtain ⟨_, _, _, -, -, hf, ht, -⟩ := h.slots
  rw [ht]
  exact hf

theorem RanTransaction.result0 (h : RanTransaction limit s t) : t.result0 = s.result0 := by
  obtain ⟨ys, _, _, -, -, -, ht, -⟩ := h.slots
  rw [ht]
  exact s.afterSlots_result0 ys

theorem RanTransaction.result1 (h : RanTransaction limit s t) : t.result1 = s.result1 := by
  obtain ⟨ys, _, _, -, -, -, ht, -⟩ := h.slots
  rw [ht]
  exact s.afterSlots_result1 ys

/-- RBUF is written only where the last byte sent was acknowledged, so where STATUS.FAIL is 0 (R203). -/
theorem RanTransaction.fail_of_rbuf (h : RanTransaction limit s t) (hr : t.rbuf ≠ s.rbuf) : t.fail = false := by
  obtain ⟨_, _, a, -, -, -, ht, hkeep⟩ := h.slots
  cases a with
  | ack => rw [ht]; rfl
  | nack => exact absurd (hkeep rfl) hr

theorem RanTransaction.sameRecord (h : RanTransaction limit s t) : s.SameRecord t := by
  obtain ⟨ys, _, _, -, -, -, ht, -⟩ := h.slots
  obtain ⟨hf, hcode, hcmd⟩ := s.afterSlots_sameRecord ys
  rw [ht]
  exact ⟨hf, hcode, hcmd⟩

theorem RanTransaction.grows (h : RanTransaction limit s t) : s.Grows t := by
  obtain ⟨ys, _, _, -, -, -, ht, -⟩ := h.slots
  obtain ⟨hp, hn, htr⟩ := s.afterSlots_grows ys
  rw [ht]
  exact ⟨hp, hn, htr⟩

theorem RanTransaction.driveInv (h : RanTransaction limit s t) (hs : s.DriveInv) : t.DriveInv := by
  obtain ⟨ys, _, _, -, hc, -, ht, -⟩ := h.slots
  rw [ht]
  exact (State.afterSlots_driveInv ys hc hs).of_lines rfl rfl rfl rfl rfl

end

/-! ## All commands -/

/-- No command that runs writes the fault record (R38, R232). -/
theorem Ran.sameRecord {i : Instr} {s t : State} (h : Ran i s t) : s.SameRecord t := by
  cases i with
  | bcd r b => obtain rfl := h; exact ⟨rfl, rfl, rfl⟩
  | setdir l d => exact h.droveLine_setdir.sameRecord
  | setlvl l v => exact h.droveLine_setlvl.sameRecord
  | readlvl l => obtain ⟨v, n, rfl⟩ := h; exact ⟨rfl, rfl, rfl⟩
  | delay n => obtain rfl := h; exact ⟨rfl, rfl, rfl⟩
  | start => obtain ⟨-, -, rfl⟩ := h; exact ⟨rfl, rfl, rfl⟩
  | stop => obtain ⟨-, -, -, rfl⟩ := h; exact ⟨rfl, rfl, rfl⟩
  | sendbit _ | recvbit | sendbyte _ | recvbyte | sendack _ | recvack | send _ | recv _ => exact h.1.sameRecord
  | initp => exact h.1.sameRecord
  | readblk b n => exact RanTransaction.sameRecord h

/-- Every command that runs only adds to NOW and to TRACE (R31, R32). -/
theorem Ran.grows {i : Instr} {s t : State} (h : Ran i s t) : s.Grows t := by
  cases i with
  | bcd r b => obtain rfl := h; exact ⟨rfl, Nat.le_refl _, [], by simp⟩
  | setdir l d => exact h.droveLine_setdir.grows
  | setlvl l v => exact h.droveLine_setlvl.grows
  | readlvl l => obtain ⟨v, n, rfl⟩ := h; exact ⟨rfl, Nat.le_refl _, _, rfl⟩
  | delay n => obtain rfl := h; exact ⟨rfl, Nat.le_add_right .., [], by simp⟩
  | start => obtain ⟨-, -, rfl⟩ := h; exact ⟨rfl, Nat.le_add_right .., _, rfl⟩
  | stop => obtain ⟨-, -, -, rfl⟩ := h; exact ⟨rfl, Nat.le_add_right .., _, rfl⟩
  | sendbit _ | recvbit | sendbyte _ | recvbyte | sendack _ | recvack | send _ | recv _ => exact h.1.grows
  | initp => exact h.1.grows
  | readblk b n => exact RanTransaction.grows h

/-- Every command that runs keeps R30: SETDIR, which alone could release CLOCK, does not run in a transaction, and START
and STOP run at FRAME 0 only. -/
theorem Ran.busInv {i : Instr} {s t : State} (h : Ran i s t) (hs : s.BusInv) : t.BusInv := by
  have of_idle (hb : s.bus = .idle) (hbus : t.bus = s.bus) (hframe : t.frame = s.frame) : t.BusInv :=
    ⟨fun _ => by rw [hframe, hs.idle_frame hb], fun ht => by simp [hbus, hb] at ht⟩
  cases i with
  | bcd r b => obtain rfl := h; exact ⟨hs.idle_frame, hs.open_clock⟩
  | setdir l d => exact of_idle h.droveLine_setdir.idle h.droveLine_setdir.bus h.droveLine_setdir.frame
  | setlvl l v => exact of_idle h.droveLine_setlvl.idle h.droveLine_setlvl.bus h.droveLine_setlvl.frame
  | readlvl l => obtain ⟨v, n, rfl⟩ := h; exact ⟨hs.idle_frame, hs.open_clock⟩
  | delay n => obtain rfl := h; exact ⟨hs.idle_frame, hs.open_clock⟩
  | start => obtain ⟨-, hc, rfl⟩ := h; exact ⟨fun _ => rfl, fun _ => hc⟩
  | stop => obtain ⟨-, hf, hc, rfl⟩ := h; exact ⟨fun _ => hf, fun _ => hc⟩
  | sendbit _ | recvbit | sendbyte _ | recvbyte | sendack _ | recvack | send _ | recv _ =>
    exact ⟨fun ht => by simp [h.1.bus, h.1.addressed] at ht, fun _ => h.1.clockDir⟩
  | initp => exact of_idle h.1.idle h.1.bus h.1.frame
  | readblk b n => exact of_idle (RanTransaction.idle h) (RanTransaction.bus h) (RanTransaction.frame h)

/-- Every command that runs keeps TRACE the record of the lines (R32, R33). -/
theorem Ran.driveInv {i : Instr} {s t : State} (h : Ran i s t) (hs : s.DriveInv) : t.DriveInv := by
  cases i with
  | bcd r b => obtain rfl := h; exact hs.of_lines rfl rfl rfl rfl rfl
  | setdir l d => exact h.droveLine_setdir.driveInv hs
  | setlvl l v => exact h.droveLine_setlvl.driveInv hs
  | readlvl l =>
    obtain ⟨v, n, rfl⟩ := h
    exact ⟨(driveAfter_append ..).trans hs.clock, (driveAfter_append ..).trans hs.data⟩
  | delay n => obtain rfl := h; exact hs.of_lines rfl rfl rfl rfl rfl
  | start =>
    obtain ⟨-, hc, rfl⟩ := h
    exact (State.afterSlots_driveInv [.start] hc hs).of_lines rfl rfl rfl rfl rfl
  | stop =>
    obtain ⟨-, -, hc, rfl⟩ := h
    exact (State.afterSlots_driveInv [.stop] hc hs).of_lines rfl rfl rfl rfl rfl
  | sendbit _ | recvbit | sendbyte _ | recvbyte | sendack _ | recvack | send _ | recv _ => exact h.1.driveInv hs
  | initp => exact h.1.driveInv hs
  | readblk b n => exact RanTransaction.driveInv h hs

end Sys2Proof.Machine
end

section
/-! PROOF. The invariants of R30, R33 and R38, and the growth of NOW and TRACE, over every step. -/

namespace Sys2Proof.Machine

/-- What every step keeps. A predicate that does not look at the model's own queue and replies nor at CMD holds after a
step where it holds before it, if taking a fault, running a command and being reset keep it (R230, R260). -/
theorem step_keeps {P : State → Prop}
    (hown : ∀ u pending replies cmd, P u → P { u with pending := pending, replies := replies, cmd := cmd })
    (hfault : ∀ u c, P u → P (u.takeFault c))
    (hran : ∀ i u v, Ran i u v → P u → P v)
    {s t : State} (hreset : ∀ rest, s.pending = .reset :: rest → P (s.popped rest).applyReset)
    (h : step s = .next t) (hs : P s) : P t := by
  obtain ⟨-, rfl⟩ | ⟨w, rest, -, -, rfl⟩ | ⟨w, rest, k, -, -, -, rfl⟩ | ⟨w, rest, i, u, -, -, -, hu, rfl⟩ |
    ⟨a, v, rest, -, -, rfl⟩ | ⟨a, rest, -, rfl⟩ | ⟨rest, hp, rfl⟩ := step_cases h
  case inl => exact hs
  case inr.inl => exact hown s rest s.replies s.cmd hs
  case inr.inr.inl =>
    exact hown _ rest s.replies 0 (hfault _ .illegalCmd (hown s rest s.replies w hs))
  case inr.inr.inr.inl =>
    have hentry : P ((s.popped rest).setCmd w) := hown s rest s.replies w hs
    obtain ⟨c, rfl⟩ | hr := exec_next hu
    · exact hown _ rest s.replies 0 (hfault _ c hentry)
    · exact hown u u.pending u.replies 0 (hran i _ u hr hentry)
  case inr.inr.inr.inr.inl => exact hown s rest s.replies s.cmd hs
  case inr.inr.inr.inr.inr.inl => exact hown s rest _ s.cmd hs
  case inr.inr.inr.inr.inr.inr => exact hreset rest hp

/-- Settles O49: the reset state meets R30, a fault touches none of BUS, FRAME and CLOCK, and every command that runs
keeps it. -/
theorem stepKeepsTheBusInvariant : Obligations.StepKeepsTheBusInvariant := by
  unfold Obligations.StepKeepsTheBusInvariant
  intro s t hs h
  refine step_keeps (P := State.BusInv) ?_ ?_ (fun i u v => Ran.busInv) ?_ h hs
  · exact fun u _ _ _ hu => ⟨hu.idle_frame, hu.open_clock⟩
  · exact fun u _ hu => ⟨hu.idle_frame, hu.open_clock⟩
  · exact fun rest _ => ⟨fun _ => rfl, nofun⟩

/-- Settles O52: the reset state has an empty TRACE and released lines, a fault touches neither, and every command that
runs keeps them in agreement. -/
theorem stepKeepsTheTraceTrue : Obligations.StepKeepsTheTraceTrue := by
  unfold Obligations.StepKeepsTheTraceTrue
  intro s t hs h
  refine step_keeps (P := State.DriveInv) ?_ ?_ (fun i u v => Ran.driveInv) ?_ h hs
  · exact fun u _ _ _ hu => hu.of_lines rfl rfl rfl rfl rfl
  · exact fun u _ hu => hu.of_lines rfl rfl rfl rfl rfl
  · exact fun rest _ => ⟨rfl, rfl⟩

/-- CMD is clear after every step that began with it clear (R34, R74; log 5). -/
theorem step_cmd_clear {s t : State} (hs : s.cmd = 0) (h : step s = .next t) : t.cmd = 0 := by
  obtain ⟨-, rfl⟩ | ⟨w, rest, -, -, rfl⟩ | ⟨w, rest, k, -, -, -, rfl⟩ | ⟨w, rest, i, u, -, -, -, -, rfl⟩ |
    ⟨a, v, rest, -, -, rfl⟩ | ⟨a, rest, -, rfl⟩ | ⟨rest, -, rfl⟩ := step_cases h
  case inr.inr.inl => rfl
  case inr.inr.inr.inl => rfl
  case inr.inr.inr.inr.inr.inr => rfl
  all_goals exact hs

/-- The fault record of R38 without CMD, which a command in progress holds: clear before the first fault, a code of R231
after it. -/
def State.RecordHeld (s : State) : Prop :=
  (s.fault = false → s.faultCode = 0 ∧ s.faultCmd = 0) ∧ (s.fault = true → ∃ c : FaultCode, s.faultCode = c.code)

theorem State.SameRecord.recordHeld {s t : State} (h : s.SameRecord t) (hs : s.RecordHeld) : t.RecordHeld := by
  rw [State.RecordHeld, h.fault, h.faultCode, h.faultCmd]
  exact hs

theorem step_recordHeld {s t : State} (hs : s.RecordHeld) (h : step s = .next t) : t.RecordHeld := by
  refine step_keeps (P := State.RecordHeld) ?_ ?_ (fun i u v hr => hr.sameRecord.recordHeld) ?_ h hs
  · exact fun u _ _ _ hu => hu
  · exact fun u c _ => ⟨nofun, fun _ => ⟨c, rfl⟩⟩
  · exact fun rest _ => ⟨fun _ => ⟨rfl, rfl⟩, nofun⟩

/-- Settles O50: only taking a fault and reset write the record, and every command's end clears CMD. -/
theorem stepKeepsTheFaultRecord : Obligations.StepKeepsTheFaultRecord := by
  unfold Obligations.StepKeepsTheFaultRecord
  intro s t hs h
  obtain ⟨hclear, hheld⟩ := step_recordHeld ⟨hs.clear, hs.held⟩ h
  exact ⟨hclear, hheld, step_cmd_clear hs.idle_cmd h⟩

end Sys2Proof.Machine
end

section
/-! PROOF. Which commands write each of the flags, the result registers, RBUF and BUS (R28, R36, R37, R43, R44). -/

namespace Sys2Proof.Machine

/-- Of the commands that run, these alone write STATUS.NACK. -/
theorem Ran.writes_nack {i : Instr} {s t : State} (h : Ran i s t) (hn : t.nack ≠ s.nack) :
    i = .recvack ∨ (∃ b, i = .send b) ∨ i = .initp ∨ ∃ b n, i = .readblk b n := by
  cases i with
  | recvack => exact .inl rfl
  | send b => exact .inr (.inl ⟨b, rfl⟩)
  | initp => exact .inr (.inr (.inl rfl))
  | readblk b n => exact .inr (.inr (.inr ⟨b, n, rfl⟩))
  | setdir l d => exact absurd h.droveLine_setdir.nack hn
  | setlvl l v => exact absurd h.droveLine_setlvl.nack hn
  | bcd _ _ | delay _ => obtain rfl := h; exact absurd rfl hn
  | readlvl l => obtain ⟨v, n, rfl⟩ := h; exact absurd rfl hn
  | start => obtain ⟨-, -, rfl⟩ := h; exact absurd rfl hn
  | stop => obtain ⟨-, -, -, rfl⟩ := h; exact absurd rfl hn
  | sendbit _ | sendbyte _ | sendack _ => obtain ⟨-, -, hkept, -⟩ := h; exact absurd hkept hn
  | recvbit | recvbyte | recv _ => obtain ⟨-, hkept, -⟩ := h; exact absurd hkept hn

/-- Settles O39: a fault keeps STATUS.NACK, and so does a command that runs and is none of the four. -/
theorem onlyAcknowledgedCommandsWriteNack : Obligations.OnlyAcknowledgedCommandsWriteNack := by
  unfold Obligations.OnlyAcknowledgedCommandsWriteNack
  intro i s t h hn
  obtain ⟨c, rfl⟩ | hr := exec_next h
  · exact absurd rfl hn
  · exact hr.writes_nack hn

/-- Of the commands that run, these alone write STATUS.FAIL. -/
theorem Ran.writes_fail {i : Instr} {s t : State} (h : Ran i s t) (hn : t.fail ≠ s.fail) :
    (∃ b, i = .send b) ∨ i = .initp ∨ ∃ b n, i = .readblk b n := by
  cases i with
  | send b => exact .inl ⟨b, rfl⟩
  | initp => exact .inr (.inl rfl)
  | readblk b n => exact .inr (.inr ⟨b, n, rfl⟩)
  | setdir l d => exact absurd h.droveLine_setdir.fail hn
  | setlvl l v => exact absurd h.droveLine_setlvl.fail hn
  | bcd _ _ | delay _ => obtain rfl := h; exact absurd rfl hn
  | readlvl l => obtain ⟨v, n, rfl⟩ := h; exact absurd rfl hn
  | start => obtain ⟨-, -, rfl⟩ := h; exact absurd rfl hn
  | stop => obtain ⟨-, -, -, rfl⟩ := h; exact absurd rfl hn
  | sendbit _ | sendbyte _ | sendack _ => obtain ⟨-, -, -, hkept⟩ := h; exact absurd hkept hn
  | recvbit | recvbyte | recv _ => obtain ⟨-, -, hkept⟩ := h; exact absurd hkept hn
  | recvack => obtain ⟨-, hkept⟩ := h; exact absurd hkept hn

/-- Settles O40: a fault keeps STATUS.FAIL, and so does a command that runs and is none of the three. -/
theorem onlyTransfersWriteFail : Obligations.OnlyTransfersWriteFail := by
  unfold Obligations.OnlyTransfersWriteFail
  intro i s t h hn
  obtain ⟨c, rfl⟩ | hr := exec_next h
  · exact absurd rfl hn
  · exact hr.writes_fail hn

/-- Of the commands that run, these alone write RESULT0. -/
theorem Ran.writes_result0 {i : Instr} {s t : State} (h : Ran i s t) (hn : t.result0 ≠ s.result0) :
    (∃ l, i = .readlvl l) ∨ i = .recvbit ∨ i = .recvbyte ∨ i = .recvack ∨ (∃ a, i = .recv a) ∨
      ∃ r b, i = .bcd r b := by
  cases i with
  | readlvl l => exact .inl ⟨l, rfl⟩
  | recvbit => exact .inr (.inl rfl)
  | recvbyte => exact .inr (.inr (.inl rfl))
  | recvack => exact .inr (.inr (.inr (.inl rfl)))
  | recv a => exact .inr (.inr (.inr (.inr (.inl ⟨a, rfl⟩))))
  | bcd r b => exact .inr (.inr (.inr (.inr (.inr ⟨r, b, rfl⟩))))
  | setdir l d => exact absurd h.droveLine_setdir.result0 hn
  | setlvl l v => exact absurd h.droveLine_setlvl.result0 hn
  | delay n => obtain rfl := h; exact absurd rfl hn
  | start => obtain ⟨-, -, rfl⟩ := h; exact absurd rfl hn
  | stop => obtain ⟨-, -, -, rfl⟩ := h; exact absurd rfl hn
  | sendbit _ | sendbyte _ | sendack _ => obtain ⟨-, hkept, -⟩ := h; exact absurd hkept hn
  | send b => obtain ⟨-, hkept⟩ := h; exact absurd hkept hn
  | initp => exact absurd h.1.result0 hn
  | readblk b n => exact absurd (RanTransaction.result0 h) hn

/-- Of the commands that run, BCD alone writes RESULT1. -/
theorem Ran.writes_result1 {i : Instr} {s t : State} (h : Ran i s t) (hn : t.result1 ≠ s.result1) :
    ∃ r b, i = .bcd r b := by
  cases i with
  | bcd r b => exact ⟨r, b, rfl⟩
  | setdir l d => exact absurd h.droveLine_setdir.result1 hn
  | setlvl l v => exact absurd h.droveLine_setlvl.result1 hn
  | readlvl l => obtain ⟨v, n, rfl⟩ := h; exact absurd rfl hn
  | delay n => obtain rfl := h; exact absurd rfl hn
  | start => obtain ⟨-, -, rfl⟩ := h; exact absurd rfl hn
  | stop => obtain ⟨-, -, -, rfl⟩ := h; exact absurd rfl hn
  | sendbit _ | recvbit | sendbyte _ | recvbyte | sendack _ | recvack | send _ | recv _ =>
    exact absurd h.1.result1 hn
  | initp => exact absurd h.1.result1 hn
  | readblk b n => exact absurd (RanTransaction.result1 h) hn

/-- Of the commands that run, READBLK alone writes RBUF, and only with STATUS.FAIL 0 at its end. -/
theorem Ran.writes_rbuf {i : Instr} {s t : State} (h : Ran i s t) (hn : t.rbuf ≠ s.rbuf) :
    (∃ b n, i = .readblk b n) ∧ t.fail = false := by
  cases i with
  | readblk b n => exact ⟨⟨b, n, rfl⟩, RanTransaction.fail_of_rbuf h hn⟩
  | initp => exact absurd h.2 hn
  | setdir l d => exact absurd h.droveLine_setdir.rbuf hn
  | setlvl l v => exact absurd h.droveLine_setlvl.rbuf hn
  | bcd _ _ | delay _ => obtain rfl := h; exact absurd rfl hn
  | readlvl l => obtain ⟨v, n, rfl⟩ := h; exact absurd rfl hn
  | start => obtain ⟨-, -, rfl⟩ := h; exact absurd rfl hn
  | stop => obtain ⟨-, -, -, rfl⟩ := h; exact absurd rfl hn
  | sendbit _ | recvbit | sendbyte _ | recvbyte | sendack _ | recvack | send _ | recv _ =>
    exact absurd h.1.rbuf hn

/-- Settles O41: a fault keeps the three registers, and a command that runs writes each as the lemmas above say. -/
theorem resultsAreWrittenOnlyByTheirCommands : Obligations.ResultsAreWrittenOnlyByTheirCommands := by
  unfold Obligations.ResultsAreWrittenOnlyByTheirCommands
  intro i s t h
  obtain ⟨c, rfl⟩ | hr := exec_next h
  · exact ⟨absurd rfl, absurd rfl, absurd rfl⟩
  · refine ⟨hr.writes_result0, hr.writes_result1, fun hn => ?_⟩
    obtain ⟨hi, hfail⟩ := hr.writes_rbuf hn
    exact ⟨hi, hr.sameRecord.fault, hfail⟩

/-- Of the commands that run, START and STOP alone move BUS: the sequencer is back in IDLE when it ends. -/
theorem Ran.moves_bus {i : Instr} {s t : State} (h : Ran i s t) (hn : t.bus ≠ s.bus) :
    (i = .start ∧ s.bus = .idle ∧ t.bus = .addressed) ∨ (i = .stop ∧ s.bus = .addressed ∧ t.bus = .idle) := by
  cases i with
  | start =>
    obtain ⟨-, -, rfl⟩ := h
    cases hb : s.bus with
    | idle => exact .inl ⟨rfl, rfl, rfl⟩
    | addressed => exact absurd hb.symm hn
  | stop => obtain ⟨hb, -, -, rfl⟩ := h; exact .inr ⟨rfl, hb, rfl⟩
  | setdir l d => exact absurd h.droveLine_setdir.bus hn
  | setlvl l v => exact absurd h.droveLine_setlvl.bus hn
  | bcd _ _ | delay _ => obtain rfl := h; exact absurd rfl hn
  | readlvl l => obtain ⟨v, n, rfl⟩ := h; exact absurd rfl hn
  | sendbit _ | recvbit | sendbyte _ | recvbyte | sendack _ | recvack | send _ | recv _ => exact absurd h.1.bus hn
  | initp => exact absurd h.1.bus hn
  | readblk b n => exact absurd (RanTransaction.bus h) hn

/-- START between bytes with CLOCK driven (R142). -/
theorem exec_start_run {s : State} (hf : s.frame = 0) (hc : s.clockDir = .output) :
    exec .start s = .next (((s.afterSlot .start).setBus .addressed).clearFrame) :=
  runCommand_ok (Cmd.bind_then (midByteCheck_pass hf) (Cmd.bind_then (condStart_run hc) rfl))

/-- STOP in a transaction, between bytes, with CLOCK driven (R143). -/
theorem exec_stop_run {s : State} (hb : s.bus = .addressed) (hf : s.frame = 0) (hc : s.clockDir = .output) :
    exec .stop s = .next ((s.afterSlot .stop).setBus .idle) :=
  runCommand_ok (Cmd.bind_then (openCheck_pass hb) (Cmd.bind_then (midByteCheck_pass hf)
    (Cmd.bind_then (condStop_run hc) rfl)))

/-- Settles O42: a fault keeps BUS, the two commands that move it do so where they do not fault, and they do not fault
where their checks pass. -/
theorem onlyStartAndStopMoveTheBus : Obligations.OnlyStartAndStopMoveTheBus := by
  unfold Obligations.OnlyStartAndStopMoveTheBus
  intro i s t h
  refine ⟨fun hn => ?_, ?_, ?_⟩
  · obtain ⟨c, rfl⟩ | hr := exec_next h
    · exact absurd rfl hn
    · exact hr.moves_bus hn
  · rintro rfl hf hc
    rw [exec_start_run hf hc, Host.Outcome.next.injEq] at h
    rw [← h]
    rfl
  · rintro rfl hb hf hc
    rw [exec_stop_run hb hf hc, Host.Outcome.next.injEq] at h
    rw [← h]
    rfl

end Sys2Proof.Machine
end

section
/-! PROOF. What is held over every step: the record of the first fault (R38, R235), and NOW, TRACE and the parameters
(R31, R32, R45). -/

namespace Sys2Proof.Machine

/-- A controller with a fault takes a host access from the queue, and at most answers a read (R235). -/
theorem step_after_fault {s t : State} {x : HostAccess} {rest : List HostAccess} (hf : s.fault = true)
    (hp : s.pending = x :: rest) (hx : x ≠ .reset) (h : step s = .next t) :
    t = { s with pending := rest, replies := t.replies } := by
  obtain ⟨hp', -⟩ | ⟨w, _, hp', -, rfl⟩ | ⟨w, _, k, -, hf', -⟩ | ⟨w, _, i, u, -, hf', -⟩ |
    ⟨a, v, _, -, hp', rfl⟩ | ⟨a, _, hp', rfl⟩ | ⟨_, hp', -⟩ := step_cases h
  case inl => simp [hp] at hp'
  case inr.inr.inl => simp [hf] at hf'
  case inr.inr.inr.inl => simp [hf] at hf'
  all_goals
    rw [hp, List.cons.injEq] at hp'
    obtain ⟨hx', rfl⟩ := hp'
  case inr.inr.inr.inr.inr.inr => exact absurd hx' hx
  all_goals rfl

/-- A step from a state without a fault, other than a reset: the record stays clear of a fault, or the access was a word
written to CMD that raised one, and the record is of it (R232). -/
theorem step_before_fault {s t : State} {x : HostAccess} {rest : List HostAccess} (hf : s.fault = false)
    (hp : s.pending = x :: rest) (hx : x ≠ .reset) (h : step s = .next t) :
    s.SameRecord t ∨
      ∃ (w : CmdWord) (c : FaultCode), x = .write 0 2 w ∧ t.fault = true ∧ t.faultCmd = w ∧ t.faultCode = c.code := by
  obtain ⟨-, rfl⟩ | ⟨w, _, -, -, rfl⟩ | ⟨w, _, k, hp', -, -, rfl⟩ | ⟨w, _, i, u, hp', -, -, hu, rfl⟩ |
    ⟨a, v, _, -, -, rfl⟩ | ⟨a, _, -, rfl⟩ | ⟨_, hp', -⟩ := step_cases h
  case inr.inr.inl =>
    rw [hp, List.cons.injEq] at hp'
    exact .inr ⟨w, .illegalCmd, hp'.1, rfl, rfl, rfl⟩
  case inr.inr.inr.inl =>
    rw [hp, List.cons.injEq] at hp'
    obtain ⟨c, rfl⟩ | hr := exec_next hu
    · exact .inr ⟨w, c, hp'.1, rfl, rfl, rfl⟩
    · exact .inl ⟨hr.sameRecord.fault, hr.sameRecord.faultCode, hr.sameRecord.faultCmd⟩
  case inr.inr.inr.inr.inr.inr =>
    rw [hp, List.cons.injEq] at hp'
    exact absurd hp'.1 hx
  all_goals exact .inl ⟨rfl, rfl, rfl⟩

theorem FaultCode.code_range (c : FaultCode) : 1 ≤ c.code.toNat ∧ c.code.toNat ≤ 8 := by cases c <;> decide

/-- Settles O38: a reset clears the record, and any other access does as the two lemmas above say. -/
theorem firstFaultIsHeldUntilReset : Obligations.FirstFaultIsHeldUntilReset := by
  unfold Obligations.FirstFaultIsHeldUntilReset
  intro s t x rest hp h
  refine ⟨fun hf hx => step_after_fault hf hp hx h, fun hf ht => ?_, fun hf ht hx => ?_⟩
  · have hx : x ≠ .reset := by
      rintro rfl
      rw [step_reset hp, Host.Outcome.next.injEq] at h
      rw [← h] at ht
      cases ht
    obtain hsame | ⟨w, c, hw, -, hcmd, hcode⟩ := step_before_fault hf hp hx h
    · rw [hsame.fault, hf] at ht
      cases ht
    · rw [hcode]
      exact ⟨w, hw, hcmd, c.code_range⟩
  · obtain hsame | ⟨w, c, -, ht', -⟩ := step_before_fault hf hp hx h
    · exact ⟨hsame.faultCode, hsame.faultCmd⟩
    · rw [ht'] at ht
      cases ht

theorem step_params {s t : State} (h : step s = .next t) : t.params = s.params := by
  refine step_keeps (P := fun u => u.params = s.params) ?_ ?_ ?_ (fun _ _ => rfl) h rfl
  · exact fun u _ _ _ hu => hu
  · exact fun u _ hu => hu
  · exact fun i u v hr hu => hr.grows.params.trans hu

theorem step_grows {s t : State} (hx : ∀ rest, s.pending ≠ .reset :: rest) (h : step s = .next t) : s.Grows t := by
  refine step_keeps (P := s.Grows) ?_ ?_ ?_ (fun rest hp => absurd hp (hx rest)) h (State.Grows.refl s)
  · exact fun u _ _ _ hu => ⟨hu.params, hu.now, hu.trace⟩
  · exact fun u _ hu => ⟨hu.params, hu.now, hu.trace⟩
  · exact fun i u v hr hu => hu.trans hr.grows

/-- Settles O44: every command only adds to NOW and TRACE, so every step that is no reset does; reset keeps the
parameters. -/
theorem timeAndTraceOnlyGrow : Obligations.TimeAndTraceOnlyGrow := by
  unfold Obligations.TimeAndTraceOnlyGrow
  intro s t h
  exact ⟨step_params h, fun hx => ⟨(step_grows hx h).now, (step_grows hx h).trace⟩⟩

end Sys2Proof.Machine
end

section
/-! PROOF. The fields of STATUS (R35), and the reset state (R48). -/

namespace Sys2Proof.Machine

theorem State.status_nack (s : State) : s.status.getLsbD 0 = s.nack := by
  simp only [State.status, BitVec.getLsbD_append]
  simp

theorem State.status_fail (s : State) : s.status.getLsbD 1 = s.fail := by
  simp only [State.status, BitVec.getLsbD_append]
  simp

theorem State.status_txn (s : State) : s.status.getLsbD 2 = (s.bus == .addressed) := by
  simp only [State.status, BitVec.getLsbD_append]
  simp

theorem State.status_fault (s : State) : s.status.getLsbD 7 = s.fault := by
  simp only [State.status, BitVec.getLsbD_append]
  simp

/-- Three one-bit fields lie below FRAME, and FRAME fills the four bits above them. -/
theorem State.status_frame (s : State) : s.status.extractLsb' 3 4 = BitVec.ofNat 4 s.frame.val := by
  ext k hk
  have hbelow : 3 + k - 1 - 1 - 1 = k := by omega
  simp only [State.status, BitVec.getElem_extractLsb', BitVec.getLsbD_append, hbelow]
  simp [hk]

theorem State.status_frame_toNat (s : State) : (s.status.extractLsb' 3 4).toNat = s.frame.val := by
  rw [s.status_frame, BitVec.toNat_ofNat]
  exact Nat.mod_eq_of_lt (by omega)

theorem State.status_eq_zero {s : State} (hfault : s.fault = false) (hframe : s.frame = 0) (hbus : s.bus = .idle)
    (hfail : s.fail = false) (hnack : s.nack = false) : s.status = 0 := by
  rw [State.status, hfault, hframe, hbus, hfail, hnack]
  decide

/-- Settles O11, field by field; FRAME counts modulo 9, so it is at most 8. -/
theorem statusFieldsAreTheirMirrors : Obligations.StatusFieldsAreTheirMirrors := by
  unfold Obligations.StatusFieldsAreTheirMirrors
  intro s
  have htxn : s.status.getLsbD 2 = true ↔ s.bus = .addressed := by rw [s.status_txn, beq_iff_eq]
  have hbound : (s.status.extractLsb' 3 4).toNat ≤ 8 := s.status_frame_toNat ▸ Nat.le_of_lt_succ s.frame.isLt
  exact ⟨s.status_nack, s.status_fail, htxn, s.status_frame_toNat, hbound, s.status_fault⟩

/-- Settles O12: both states are what the reset input leaves of some state. -/
theorem resetGivesEveryStateItsValue : Obligations.ResetGivesEveryStateItsValue := by
  unfold Obligations.ResetGivesEveryStateItsValue
  intro s rest hp
  refine ⟨_, step_reset hp, fun r hr => ?_⟩
  have hreset : ∃ u : State, r = u.applyReset := by
    simp only [List.mem_cons, List.not_mem_nil, or_false] at hr
    obtain rfl | rfl := hr
    · exact ⟨_, rfl⟩
    · exact ⟨State.reset, rfl⟩
  obtain ⟨u, rfl⟩ := hreset
  have hstatus : u.applyReset.status = 0 := State.status_eq_zero rfl rfl rfl rfl rfl
  have hrbuf (k : Fin 8) : u.applyReset.rbuf[k] = 0 := Vector.getElem_replicate k.isLt
  exact ⟨rfl, rfl, rfl, rfl, rfl, rfl, rfl, rfl, rfl, hstatus, rfl, rfl, rfl, rfl, rfl, rfl, rfl, hrbuf, rfl, rfl⟩

/-- Settles O48: TRACE is empty, so it holds no condition, and every register holds its reset value. -/
theorem resetMeetsTheInvariants : Obligations.ResetMeetsTheInvariants := by
  unfold Obligations.ResetMeetsTheInvariants
  have hbus : State.reset.BusInv := ⟨fun _ => rfl, nofun⟩
  have hrecord : State.reset.RecordInv := ⟨fun _ => ⟨rfl, rfl⟩, nofun, rfl⟩
  have htime : State.reset.TimeInv := ⟨List.Pairwise.nil, nofun⟩
  have hdrive : State.reset.DriveInv := ⟨rfl, rfl⟩
  have hnest : State.reset.NestInv := ⟨rfl, nofun, nofun⟩
  have hfree : State.reset.FreeTimeInv := ⟨trivial, nofun⟩
  exact ⟨hbus, hrecord, htime, hdrive, hnest, hfree⟩

end Sys2Proof.Machine
end

section
/-! PROOF. The bus events stay ordered by time (R72): a command adds to TRACE only events that are ordered among
themselves and that lie between its beginning and its end. -/

namespace Sys2Proof.Machine

/-- TRACE stays ordered where the events added to it are ordered and lie between the two times. -/
theorem State.TimeInv.append {s t : State} {new : List Event} (hs : s.TimeInv) (htrace : t.trace = s.trace ++ new)
    (hnow : s.now ≤ t.now) (hord : (new.map Event.time).Pairwise (· ≤ ·))
    (hnew : ∀ e ∈ new, s.now ≤ e.time ∧ e.time ≤ t.now) : t.TimeInv where
  ordered := by
    rw [htrace, List.map_append, List.pairwise_append]
    refine ⟨hs.ordered, hord, ?_⟩
    simp only [List.forall_mem_map]
    exact fun a ha b hb => (hs.past a ha).trans (hnew b hb).1
  past e he := by
    rw [htrace, List.mem_append] at he
    obtain he | he := he
    · exact (hs.past e he).trans hnow
    · exact (hnew e he).2

/-- The order of TRACE depends on nothing but TRACE, and holds at any later time. -/
theorem State.TimeInv.of_trace {s t : State} (hs : s.TimeInv) (htrace : t.trace = s.trace) (hnow : s.now ≤ t.now) :
    t.TimeInv :=
  hs.append (new := []) (by rw [htrace, List.append_nil]) hnow .nil nofun

/-- An event that happens now comes last. -/
theorem State.TimeInv.emit {s : State} {e : Event} (hs : s.TimeInv) (he : e.time = s.now) : (s.emit e).TimeInv := by
  refine hs.append (new := [e]) rfl (Nat.le_refl _) (List.pairwise_singleton ..) fun e' he' => ?_
  obtain rfl := List.mem_singleton.1 he'
  exact ⟨he.ge, he.le⟩

theorem DroveLine.timeInv {l : Line} {s t : State} (h : DroveLine l s t) (hs : s.TimeInv) : t.TimeInv :=
  (hs.emit (e := .drive s.now l (t.drive l)) rfl).of_trace h.trace h.grows.now

theorem State.TimeInv.afterSlot {s : State} (hs : s.TimeInv) (x : Slot) : (s.afterSlot x).TimeInv :=
  have ⟨hord, hbetween⟩ := slotEvents_times s.params s.now s.dataLvl x
  hs.append rfl (Nat.le_add_right ..) hord hbetween

theorem State.TimeInv.afterSlots {s : State} (hs : s.TimeInv) (xs : List Slot) : (s.afterSlots xs).TimeInv := by
  induction xs generalizing s with
  | nil => exact hs
  | cons x xs ih => exact ih (hs.afterSlot x)

theorem RanSlots.timeInv {len : Nat} {s t : State} (h : RanSlots len s t) (hs : s.TimeInv) : t.TimeInv := by
  obtain ⟨xs, _, -, -, -, -, ht⟩ := h
  rw [ht]
  exact (hs.afterSlots xs).of_trace rfl (Nat.le_refl _)

theorem RanTransaction.timeInv {limit : Nat} {s t : State} (h : RanTransaction limit s t) (hs : s.TimeInv) :
    t.TimeInv := by
  obtain ⟨ys, _, _, -, -, -, ht, -⟩ := h.slots
  rw [ht]
  exact (hs.afterSlots ys).of_trace rfl (Nat.le_refl _)

/-- Every command that runs keeps TRACE ordered by time. -/
theorem Ran.timeInv {i : Instr} {s t : State} (h : Ran i s t) (hs : s.TimeInv) : t.TimeInv := by
  cases i with
  | bcd r b => obtain rfl := h; exact hs.of_trace rfl (Nat.le_refl _)
  | setdir l d => exact h.droveLine_setdir.timeInv hs
  | setlvl l v => exact h.droveLine_setlvl.timeInv hs
  | readlvl l =>
    obtain ⟨v, n, rfl⟩ := h
    exact (hs.emit (e := .sample s.now l v) rfl).of_trace rfl (Nat.le_refl _)
  | delay n => obtain rfl := h; exact hs.of_trace rfl (Nat.le_add_right ..)
  | start => obtain ⟨-, -, rfl⟩ := h; exact (hs.afterSlot .start).of_trace rfl (Nat.le_refl _)
  | stop => obtain ⟨-, -, -, rfl⟩ := h; exact (hs.afterSlot .stop).of_trace rfl (Nat.le_refl _)
  | sendbit _ | recvbit | sendbyte _ | recvbyte | sendack _ | recvack | send _ | recv _ => exact h.1.timeInv hs
  | initp => exact h.1.timeInv hs
  | readblk b n => exact RanTransaction.timeInv h hs

/-- Settles O51: the reset state has an empty TRACE, a fault touches neither TRACE nor NOW, and every command that runs
keeps the order. -/
theorem stepKeepsEventsInOrder : Obligations.StepKeepsEventsInOrder := by
  unfold Obligations.StepKeepsEventsInOrder
  intro s t hs h
  refine step_keeps (P := State.TimeInv) ?_ ?_ (fun i u v => Ran.timeInv) ?_ h hs
  · exact fun u _ _ _ hu => hu.of_trace rfl (Nat.le_refl _)
  · exact fun u _ hu => hu.of_trace rfl (Nat.le_refl _)
  · exact fun rest _ => ⟨.nil, nofun⟩

end Sys2Proof.Machine
end

section
/-! PROOF. The register map as the host sees it (R34, R61). -/

namespace Sys2Proof.Machine

/-- Indices 8 to 15 are the entries of RBUF. -/
theorem State.regRead_rbuf (s : State) {a : RegIndex} {k : Nat} (hk : k < 8) (ha : a.toNat = k + 8) :
    s.regRead a = s.rbuf[k].setWidth 16 := by
  rw [State.regRead, ha]
  match k, hk with
  | 0, _ | 1, _ | 2, _ | 3, _ | 4, _ | 5, _ | 6, _ | 7, _ => rfl

/-- CMD and the reserved indices read as 0. -/
theorem State.regRead_zero (s : State) {a : RegIndex} (h1 : a ≠ 1) (h2 : a ≠ 2) (h3 : a ≠ 3) (h4 : a ≠ 4)
    (h5 : a ≠ 5) (hr : ¬(8 ≤ a.toNat ∧ a.toNat ≤ 15)) : s.regRead a = 0 := by
  unfold State.regRead
  split
  case h_14 => rfl
  all_goals bv_omega

/-- The register map of R34 as one table. -/
theorem State.regRead_eq (s : State) (a : RegIndex) :
    s.regRead a =
      if a = 1 then s.status.setWidth 16 else if a = 2 then s.faultCode.setWidth 16
      else if a = 3 then s.faultCmd else if a = 4 then s.result0.setWidth 16
      else if a = 5 then s.result1.setWidth 16
      else if 8 ≤ a.toNat ∧ a.toNat ≤ 15 then ((s.rbuf[a.toNat - 8]?).getD 0).setWidth 16 else 0 := by
  split_ifs with h1 h2 h3 h4 h5 hr
  · rw [h1]; rfl
  · rw [h2]; rfl
  · rw [h3]; rfl
  · rw [h4]; rfl
  · rw [h5]; rfl
  · have hk : a.toNat - 8 < 8 := by omega
    rw [s.regRead_rbuf hk (by omega), Vector.getElem?_eq_getElem hk, Option.getD_some]
  · exact s.regRead_zero h1 h2 h3 h4 h5 hr

/-- Settles O10: each clause is the lemma about its kind of host access, a read with the register map written out. -/
theorem hostAccessesFollowTheRegisterMap : Obligations.HostAccessesFollowTheRegisterMap := by
  unfold Obligations.HostAccessesFollowTheRegisterMap
  intro s a n v rest
  refine ⟨fun hp hn => ?_, fun hp hn ha => ?_, fun hp hn => ?_⟩
  · obtain rfl : n = regBytes a := hn
    rw [step_read hp, s.regRead_eq a]
  · obtain rfl : n = regBytes a := hn
    exact step_write ha hp
  · obtain hp | hp := hp
    · exact step_read_refused hp hn
    · exact step_write_refused hp hn

end Sys2Proof.Machine
end

section
/-! PROOF. The fields of a command word (R82, R83): a field that the encoder places is what the decoder reads back, and
neither touches a bit outside it. -/

namespace Sys2Proof

theorem getLsbD_fieldAt (lsb v k : Nat) :
    (fieldAt lsb v).getLsbD k = (decide (k < 16) && !decide (k < lsb) && v.testBit (k - lsb)) := by
  rw [fieldAt, BitVec.getLsbD_shiftLeft, BitVec.getLsbD_ofNat]
  by_cases hk : k < 16
  · have hbit : k - lsb < 16 := (Nat.sub_le k lsb).trans_lt hk
    simp [hk, hbit]
  · simp [hk]

/-- A value of `len` bits sets no bit outside its field. -/
theorem getLsbD_fieldAt_outside {lsb len v k : Nat} (hv : v < 2 ^ len) (hk : k < lsb ∨ lsb + len ≤ k) :
    (fieldAt lsb v).getLsbD k = false := by
  rw [getLsbD_fieldAt]
  obtain hk | hk := hk
  · simp [hk]
  · have hbit : v.testBit (k - lsb) = false :=
      Nat.testBit_lt_two_pow (hv.trans_le (Nat.pow_le_pow_right (by decide) (by omega)))
    rw [hbit, Bool.and_false]

/-- A mask that leaves the whole field free sees nothing of it. -/
theorem fieldAt_and_eq_zero {lsb len v : Nat} {mask : CmdWord} (hv : v < 2 ^ len)
    (hm : mask.extractLsb' lsb len = 0#len) : fieldAt lsb v &&& mask = 0#16 := by
  apply BitVec.eq_of_getLsbD_eq
  intro k _
  rw [BitVec.getLsbD_and, BitVec.getLsbD_zero]
  by_cases hk : k < lsb ∨ lsb + len ≤ k
  · rw [getLsbD_fieldAt_outside hv hk, Bool.false_and]
  · obtain ⟨j, rfl⟩ := Nat.exists_eq_add_of_le (show lsb ≤ k by omega)
    have hj : j < len := by omega
    have hread : (mask.extractLsb' lsb len).getLsbD j = false := by rw [hm, BitVec.getLsbD_zero]
    have hbit : mask.getLsbD (lsb + j) = false := by
      rwa [BitVec.getLsbD_extractLsb', decide_eq_true hj, Bool.true_and] at hread
    rw [hbit, Bool.and_false]

/-- Reading the place a field was put at gives the value. -/
theorem extractLsb'_fieldAt {lsb len : Nat} (v : Nat) (hfit : lsb + len ≤ 16) :
    (fieldAt lsb v).extractLsb' lsb len = BitVec.ofNat len v := by
  apply BitVec.eq_of_getLsbD_eq
  intro k hk
  rw [BitVec.getLsbD_extractLsb', getLsbD_fieldAt, BitVec.getLsbD_ofNat, Nat.add_sub_cancel_left]
  simp [hk, show lsb + k < 16 by omega]

/-- Reading a place that the field does not reach gives nothing of it. -/
theorem extractLsb'_fieldAt_apart {lsb len start n v : Nat} (hv : v < 2 ^ len)
    (hapart : start + n ≤ lsb ∨ lsb + len ≤ start) : (fieldAt lsb v).extractLsb' start n = 0#n := by
  apply BitVec.eq_of_getLsbD_eq
  intro k hk
  rw [BitVec.getLsbD_extractLsb', getLsbD_fieldAt_outside hv (by omega), Bool.and_false, BitVec.getLsbD_zero]

/-- Putting back what was read is masking the word with the field. -/
theorem fieldAt_extractLsb' (w : CmdWord) (lsb len : Nat) :
    fieldAt lsb (w.extractLsb' lsb len).toNat = w &&& fieldAt lsb (2 ^ len - 1) := by
  apply BitVec.eq_of_getLsbD_eq
  intro k hk
  rw [BitVec.getLsbD_and, getLsbD_fieldAt, getLsbD_fieldAt, BitVec.testBit_toNat, BitVec.getLsbD_extractLsb',
    Nat.testBit_two_pow_sub_one]
  by_cases hle : lsb ≤ k
  · simp [hk, hle, hle.not_gt, Bool.and_comm]
  · simp [Nat.lt_of_not_le hle]

theorem fieldAt_byteField (w : CmdWord) : fieldAt 0 (byteField w).toNat = w &&& 0x00FF#16 :=
  fieldAt_extractLsb' w 0 8

theorem fieldAt_threeBitField (w : CmdWord) : fieldAt 8 (threeBitField w) = w &&& 0x0700#16 :=
  fieldAt_extractLsb' w 8 3

theorem fieldAt_delayField (w : CmdWord) : fieldAt 0 (delayField w) = w &&& 0x0FFF#16 :=
  fieldAt_extractLsb' w 0 12

/-- A one-bit field, which the decoder reads as a bit. -/
theorem fieldAt_getLsbD (w : CmdWord) (k : Nat) : fieldAt k (w.getLsbD k).toNat = w &&& fieldAt k 1 := by
  have hread : w.extractLsb' k 1 = BitVec.ofBool (w.getLsbD k) := by
    ext j hj
    obtain rfl := Nat.lt_one_iff.1 hj
    simp
  rw [← BitVec.toNat_ofBool, ← hread]
  exact fieldAt_extractLsb' w k 1

theorem threeBitField_lt (w : CmdWord) : threeBitField w < 8 := (w.extractLsb' 8 3).isLt

theorem delayField_lt (w : CmdWord) : delayField w < 4096 := (w.extractLsb' 0 12).isLt

/-- The low byte of formats Y, S and C (R82), read from the word it was put into. -/
theorem byteField_or_fieldAt {w : CmdWord} (i : Byte) (hw : byteField w = 0#8) :
    byteField (w ||| fieldAt 0 i.toNat) = i := by
  rw [byteField] at hw ⊢
  rw [BitVec.extractLsb'_or, hw, extractLsb'_fieldAt _ (by decide), BitVec.ofNat_toNat, BitVec.setWidth_eq,
    BitVec.zero_or]

/-- The count or register of formats S and C does not reach the low byte. -/
theorem byteField_or_fieldAt_apart {w : CmdWord} {n : Nat} (hn : n < 2 ^ 3) (hw : byteField w = 0#8) :
    byteField (w ||| fieldAt 8 n) = 0#8 := by
  rw [byteField] at hw ⊢
  rw [BitVec.extractLsb'_or, hw, extractLsb'_fieldAt_apart hn (by decide), BitVec.or_zero]

/-- The count or register of formats S and C, read from the word it was put into below a byte. -/
theorem threeBitField_or_fieldAt {w : CmdWord} {n : Nat} (i : Byte) (hn : n < 2 ^ 3)
    (hw : w.extractLsb' 8 3 = 0#3) : threeBitField (w ||| fieldAt 8 n ||| fieldAt 0 i.toNat) = n := by
  rw [threeBitField, BitVec.extractLsb'_or, BitVec.extractLsb'_or, hw, extractLsb'_fieldAt _ (by decide),
    extractLsb'_fieldAt_apart i.isLt (by decide), BitVec.or_zero, BitVec.zero_or, BitVec.toNat_ofNat,
    Nat.mod_eq_of_lt hn]

theorem delayField_or_fieldAt {w : CmdWord} {n : Nat} (hn : n < 2 ^ 12) (hw : w.extractLsb' 0 12 = 0#12) :
    delayField (w ||| fieldAt 0 n) = n := by
  rw [delayField, BitVec.extractLsb'_or, hw, extractLsb'_fieldAt _ (by decide), BitVec.zero_or, BitVec.toNat_ofNat,
    Nat.mod_eq_of_lt hn]

@[simp] theorem lineOfBit_toBit (b : Bool) : (lineOfBit b).toBit = b := by cases b <;> rfl

@[simp] theorem dirOfBit_toBit (b : Bool) : (dirOfBit b).toBit = b := by cases b <;> rfl

@[simp] theorem levelOfBit_toBit (b : Bool) : (levelOfBit b).toBit = b := by cases b <;> rfl

@[simp] theorem ackOfBit_toBit (b : Bool) : (ackOfBit b).toBit = b := by cases b <;> rfl

end Sys2Proof
end

section
/-! PROOF. Decoding undoes encoding (R83, R84, R87, R88): a command's word selects the command's row, because its fields
lie outside the row's mask, and the row reads each field back. -/

namespace Sys2Proof

/-- A field outside a mask does not change whether a word meets the row's match (R84). -/
theorem or_fieldAt_and_mask {w mask pat : CmdWord} {lsb len v : Nat} (hw : w &&& mask = pat) (hv : v < 2 ^ len)
    (hm : mask.extractLsb' lsb len = 0#len) : (w ||| fieldAt lsb v) &&& mask = pat := by
  rw [BitVec.and_or_distrib_right, hw, fieldAt_and_eq_zero hv hm, BitVec.or_zero]

theorem decode_bcd {w : CmdWord} (h : w &&& 0xF800 = 0x0800) : decode w = .ok (.bcd (threeBitField w) (byteField w)) :=
  decode_of_row (row := opcodeTable[0]) (List.getElem_mem _) (beq_iff_eq.2 h)

theorem decode_delay {w : CmdWord} (h : w &&& 0xF000 = 0x4000) : decode w = .ok (.delay (delayField w)) :=
  decode_of_row (row := opcodeTable[4]) (List.getElem_mem _) (beq_iff_eq.2 h)

theorem decode_sendbyte {w : CmdWord} (h : w &&& 0xFF00 = 0x9000) : decode w = .ok (.sendbyte (byteField w)) :=
  decode_of_row (row := opcodeTable[9]) (List.getElem_mem _) (beq_iff_eq.2 h)

theorem decode_send {w : CmdWord} (h : w &&& 0xFF00 = 0xD000) : decode w = .ok (.send (byteField w)) :=
  decode_of_row (row := opcodeTable[13]) (List.getElem_mem _) (beq_iff_eq.2 h)

theorem decode_readblk {w : CmdWord} (h : w &&& 0xF800 = 0xF800) :
    decode w = .ok (.readblk (byteField w) (threeBitField w + 1)) :=
  decode_of_row (row := opcodeTable[16]) (List.getElem_mem _) (beq_iff_eq.2 h)

theorem decode_encode_bcd {r : Nat} (i : Byte) (hr : r < 2 ^ 3) : decode (encode (.bcd r i)) = .ok (.bcd r i) := by
  have hsel : encode (.bcd r i) &&& 0xF800 = 0x0800 :=
    or_fieldAt_and_mask (or_fieldAt_and_mask rfl hr rfl) i.isLt rfl
  rw [decode_bcd hsel, encode, threeBitField_or_fieldAt i hr rfl,
    byteField_or_fieldAt i (byteField_or_fieldAt_apart hr rfl)]

theorem decode_encode_readblk {n : Nat} (i : Byte) (hn : n < 2 ^ 3) :
    decode (encode (.readblk i (n + 1))) = .ok (.readblk i (n + 1)) := by
  have hsel : encode (.readblk i (n + 1)) &&& 0xF800 = 0xF800 :=
    or_fieldAt_and_mask (or_fieldAt_and_mask rfl hn rfl) i.isLt rfl
  rw [decode_readblk hsel, encode, Nat.add_sub_cancel, threeBitField_or_fieldAt i hn rfl,
    byteField_or_fieldAt i (byteField_or_fieldAt_apart hn rfl)]

theorem decode_encode_delay {n : Nat} (hn : n < 2 ^ 12) : decode (encode (.delay n)) = .ok (.delay n) := by
  rw [encode, decode_delay (or_fieldAt_and_mask rfl hn rfl), delayField_or_fieldAt hn rfl]

theorem decode_encode_sendbyte (i : Byte) : decode (encode (.sendbyte i)) = .ok (.sendbyte i) := by
  rw [encode, decode_sendbyte (or_fieldAt_and_mask rfl i.isLt rfl), byteField_or_fieldAt i rfl]

theorem decode_encode_send (i : Byte) : decode (encode (.send i)) = .ok (.send i) := by
  rw [encode, decode_send (or_fieldAt_and_mask rfl i.isLt rfl), byteField_or_fieldAt i rfl]

/-- Settles O1: the commands with a number or a byte by their fields, each other command on its at most four words. -/
theorem decodeOfEncodeIsTheCommand : Obligations.DecodeOfEncodeIsTheCommand := by
  unfold Obligations.DecodeOfEncodeIsTheCommand
  intro i hwf
  cases i with
  | bcd r i => exact decode_encode_bcd i (Nat.lt_succ_of_le (of_decide_eq_true hwf))
  | delay n => exact decode_encode_delay (Nat.lt_succ_of_le (of_decide_eq_true hwf))
  | sendbyte i => exact decode_encode_sendbyte i
  | send i => exact decode_encode_send i
  | readblk i count =>
    obtain ⟨hpos, hle⟩ := of_decide_eq_true hwf
    obtain ⟨n, rfl⟩ := Nat.exists_eq_add_of_le' hpos
    exact decode_encode_readblk i (Nat.lt_of_succ_le hle)
  | setdir l v => cases l <;> cases v <;> rfl
  | setlvl l v => cases l <;> cases v <;> rfl
  | readlvl l => cases l <;> rfl
  | sendbit b => cases b <;> rfl
  | sendack a => cases a <;> rfl
  | recv a => cases a <;> rfl
  | start | stop | recvbit | recvbyte | recvack | initp => rfl

/-- Settles O5: each word is the one that the encoder gives the command. -/
theorem wordsOfTheSpecDecode : Obligations.WordsOfTheSpecDecode := by
  unfold Obligations.WordsOfTheSpecDecode
  have hword {i : Instr} {w : CmdWord} (hwf : WellFormed i) (hw : encode i = w) : decode w = .ok i :=
    hw ▸ decodeOfEncodeIsTheCommand i hwf
  and_intros
  all_goals exact hword rfl rfl

end Sys2Proof
end

section
/-! PROOF. Encoding undoes decoding (R81, R84, R87): the encoder puts a row's match and the fields it was decoded to,
and those fields are exactly the bits that the row's mask leaves free. -/

namespace Sys2Proof

/-- A word that selects a row is the row's match with the word's free bits. -/
theorem OpRow.pat_or_free {row : OpRow} {w : CmdWord} (h : row.selects w = true) :
    row.pat ||| (w &&& ~~~row.mask) = w := by
  rw [OpRow.selects, beq_iff_eq] at h
  rw [← h, ← BitVec.and_or_distrib_left, BitVec.or_not_self, BitVec.and_allOnes]

/-- Every field is as wide as the range of its operand (R83, R88). -/
theorem build_wellFormed (w : CmdWord) : ∀ row ∈ opcodeTable, WellFormed (row.build w) := by
  have hcount : threeBitField w < 8 := threeBitField_lt w
  have hregister : threeBitField w ≤ 7 := Nat.le_of_lt_succ hcount
  have hdelay : delayField w ≤ 4095 := Nat.le_of_lt_succ (delayField_lt w)
  simp [opcodeTable, WellFormed, Instr.wellFormed, hcount, hregister, hdelay]

/-- The two fields of formats S and C. -/
theorem or_threeBitField_or_byteField (pat w : CmdWord) :
    pat ||| fieldAt 8 (threeBitField w) ||| fieldAt 0 (byteField w).toNat = pat ||| (w &&& 0x07FF#16) := by
  rw [fieldAt_threeBitField, fieldAt_byteField, BitVec.or_assoc, ← BitVec.and_or_distrib_left]
  rfl

/-- The two fields of format L. -/
theorem or_value_or_line (pat w : CmdWord) :
    pat ||| fieldAt 9 (w.getLsbD 9).toNat ||| fieldAt 8 (w.getLsbD 8).toNat = pat ||| (w &&& 0x0300#16) := by
  rw [fieldAt_getLsbD, fieldAt_getLsbD, BitVec.or_assoc, ← BitVec.and_or_distrib_left]
  rfl

/-- The encoder puts the match of the row and the word's free bits, in every row (R82, R88). -/
theorem encode_build (w : CmdWord) :
    ∀ row ∈ opcodeTable, encode (row.build w) = row.pat ||| (w &&& ~~~row.mask) := by
  have formatN (pat : CmdWord) : pat = pat ||| (w &&& 0#16) := by rw [BitVec.and_zero, BitVec.or_zero]
  have formatL (pat : CmdWord) := or_value_or_line pat w
  have formatSC (pat : CmdWord) := or_threeBitField_or_byteField pat w
  have formatD (pat : CmdWord) := congrArg (pat ||| ·) (fieldAt_delayField w)
  have formatY (pat : CmdWord) := congrArg (pat ||| ·) (fieldAt_byteField w)
  have formatB (pat : CmdWord) := congrArg (pat ||| ·) (fieldAt_getLsbD w 0)
  have formatRA (pat : CmdWord) := congrArg (pat ||| ·) (fieldAt_getLsbD w 8)
  simp only [opcodeTable, List.forall_mem_cons, List.not_mem_nil, false_imp_iff, implies_true, and_true, encode,
    Nat.add_sub_cancel, lineOfBit_toBit, dirOfBit_toBit, levelOfBit_toBit, ackOfBit_toBit]
  exact ⟨formatSC _, formatL _, formatL _, formatRA _, formatD _, formatN _, formatN _, formatB _, formatN _,
    formatY _, formatN _, formatB _, formatN _, formatY _, formatRA _, formatN _, formatSC _⟩

/-- Settles O2: the word that decodes selects a row, and every row builds a well-formed command of that word. -/
theorem encodeOfDecodeIsTheWord : Obligations.EncodeOfDecodeIsTheWord := by
  unfold Obligations.EncodeOfDecodeIsTheWord
  intro w i h
  obtain ⟨row, hm, hs, hd⟩ | ⟨-, hd⟩ := decodeRows_cases w opcodeTable
  · obtain rfl : row.build w = i := Except.ok.inj (hd.symm.trans h)
    exact ⟨build_wellFormed w row hm, (encode_build w row hm).trans (OpRow.pat_or_free hs)⟩
  · exact nomatch hd.symm.trans h

end Sys2Proof
end

section
/-! PROOF. At most one row selects a word (R84), and the words that no row selects (R82, R86). -/

namespace Sys2Proof

/-- Settles O3: any two rows of the map are apart, so of the selected rows no two are left. -/
theorem opcodeRowsNeverOverlap : Obligations.OpcodeRowsNeverOverlap := by
  unfold Obligations.OpcodeRowsNeverOverlap
  intro w
  have hpair : (opcodeTable.filter fun row => row.selects w).Pairwise fun _ _ => False :=
    List.pairwise_filter.2 <| opcodeTable_apart.imp fun {a b} hab ha hb => by
      simp [OpRow.apart_selects hab ha] at hb
  generalize opcodeTable.filter (fun row => row.selects w) = selected at hpair
  match selected, hpair with
  | [], _ => exact Nat.zero_le 1
  | [_], _ => exact Nat.le_refl 1
  | _ :: b :: _, hpair => exact ((List.pairwise_cons.1 hpair).1 b List.mem_cons_self).elim

/-- A word is illegal exactly where no row selects it (R86). -/
theorem decode_error_iff {w : CmdWord} :
    (∃ k, decode w = .error k) ↔ ∀ row ∈ opcodeTable, row.selects w = false := by
  rw [decode]
  obtain ⟨row, hm, hs, hd⟩ | ⟨hn, hd⟩ := decodeRows_cases w opcodeTable
  · rw [hd]
    refine ⟨nofun, fun h => ?_⟩
    simp [h row hm] at hs
  · exact ⟨fun _ => hn, fun _ => ⟨_, hd⟩⟩

/-- A word is its OP and the twelve bits below it (R81). -/
theorem op_or_low (w : CmdWord) : fieldAt 12 (w.extractLsb' 12 4).toNat ||| (w &&& 0x0FFF#16) = w := by
  rw [fieldAt_extractLsb', ← BitVec.and_or_distrib_left]
  exact BitVec.and_allOnes

theorem eq_iff_op_and_low {x y : CmdWord} :
    x = y ↔ x.extractLsb' 12 4 = y.extractLsb' 12 4 ∧ x &&& 0x0FFF#16 = y &&& 0x0FFF#16 := by
  constructor
  · rintro rfl
    exact ⟨rfl, rfl⟩
  · rintro ⟨hop, hlow⟩
    rw [← op_or_low x, hop, hlow, op_or_low]

/-- A mask that holds OP whole asks for the row's OP and for its fixed bits below it (R81, R84). -/
theorem OpRow.selects_iff {row : OpRow} {w : CmdWord} (hm : row.mask.extractLsb' 12 4 = 0xF#4) :
    row.selects w = true ↔ w.extractLsb' 12 4 = row.pat.extractLsb' 12 4 ∧
      w &&& (row.mask &&& 0x0FFF#16) = row.pat &&& 0x0FFF#16 := by
  have hop : (w &&& row.mask).extractLsb' 12 4 = w.extractLsb' 12 4 := by
    rw [BitVec.extractLsb'_and, hm]
    exact BitVec.and_allOnes
  rw [OpRow.selects, beq_iff_eq, eq_iff_op_and_low, hop, BitVec.and_assoc]

/-- Illegal, with OP and the bits below it apart: whichever row has the word's OP, one of its fixed bits is wrong. -/
theorem decode_error_iff_op {w : CmdWord} :
    (∃ k, decode w = .error k) ↔ ∀ row ∈ opcodeTable, w.extractLsb' 12 4 = row.pat.extractLsb' 12 4 →
      w &&& (row.mask &&& 0x0FFF#16) ≠ row.pat &&& 0x0FFF#16 := by
  have hmask : ∀ row ∈ opcodeTable, row.mask.extractLsb' 12 4 = 0xF#4 := by decide
  rw [decode_error_iff]
  refine forall₂_congr fun row hm => ?_
  rw [← Bool.not_eq_true, OpRow.selects_iff (hmask row hm), not_and]

/-- The sub-opcode bit of R81, as the masks of BCD and READBLK test it. -/
theorem and_subopcode_eq_iff {w : CmdWord} : w &&& 0x0800#16 = 0x0800#16 ↔ w.getLsbD 11 = true := by
  have hbit : w &&& 0x0800#16 = fieldAt 11 (w.getLsbD 11).toNat := (fieldAt_getLsbD w 11).symm
  rw [hbit]
  cases w.getLsbD 11 <;> decide

/-- INITP's mask tests the sub-opcode bit and the eleven bits below it. -/
theorem and_low_eq_zero_iff {w : CmdWord} :
    w &&& 0x0FFF#16 = 0#16 ↔ w.getLsbD 11 = false ∧ w.extractLsb' 0 11 = 0#11 := by
  have hparts : w &&& 0x0FFF#16 = fieldAt 11 (w.getLsbD 11).toNat ||| fieldAt 0 (w.extractLsb' 0 11).toNat := by
    rw [fieldAt_getLsbD, fieldAt_extractLsb', ← BitVec.and_or_distrib_left]
    rfl
  constructor
  · intro h
    have hbit := congrArg (·.getLsbD 11) h
    have hlow := congrArg (·.extractLsb' 0 11) h
    rw [BitVec.extractLsb'_and] at hlow
    exact ⟨by simpa using hbit, BitVec.and_allOnes.symm.trans hlow⟩
  · rintro ⟨hbit, hlow⟩
    rw [hparts, hbit, hlow]
    rfl

/-- The values of OP, those with a sub-opcode bit first (R81). -/
theorem opcode_cases : ∀ op : BitVec 4, op = 0x0#4 ∨ op = 0xF#4 ∨
    op = 0x1#4 ∨ op = 0x2#4 ∨ op = 0x3#4 ∨ op = 0x4#4 ∨ op = 0x5#4 ∨ op = 0x6#4 ∨ op = 0x7#4 ∨
    op = 0x8#4 ∨ op = 0x9#4 ∨ op = 0xA#4 ∨ op = 0xB#4 ∨ op = 0xC#4 ∨ op = 0xD#4 ∨ op = 0xE#4 := by
  decide

/-- Settles O4, OP by OP: the rows of that OP on one side, R86's line for its format on the other. -/
theorem illegalWordsAreThoseListed : Obligations.IllegalWordsAreThoseListed := by
  unfold Obligations.IllegalWordsAreThoseListed
  intro w
  rw [decode_error_iff_op]
  simp only [opcodeTable, List.forall_mem_cons, List.not_mem_nil, false_imp_iff, implies_true, and_true, ne_eq]
  generalize w.extractLsb' 12 4 = op
  obtain rfl | rfl | hone := opcode_cases op
  · simp [and_subopcode_eq_iff]
  · cases hsub : w.getLsbD 11 with
    | false => simp [and_subopcode_eq_iff, and_low_eq_zero_iff, hsub, -BitVec.getLsbD_eq_getElem]
    | true => simp [and_subopcode_eq_iff, hsub]
  · -- Each other OP has one row, and R86 names for it the zero bits of that row's format (none for DELAY).
    obtain rfl | rfl | rfl | rfl | rfl | rfl | rfl | rfl | rfl | rfl | rfl | rfl | rfl | rfl := hone
    all_goals simp

end Sys2Proof
end

section
/-! PROOF. The Signal Driver commands (41_signal_driver.md): the words of each (R84), and each of its runs, the faults
in the order of its checks (R234). -/

namespace Sys2Proof.Machine

/-! ## Words -/

theorem delayField_eq_mod (w : CmdWord) : delayField w = w.toNat % 4096 := by
  rw [delayField, BitVec.extractLsb'_toNat, Nat.shiftRight_zero]

theorem decode_setdir {w : CmdWord} (h : w &&& 0xFCFF = 0x1000) :
    decode w = .ok (.setdir (lineOfBit (w.getLsbD 8)) (dirOfBit (w.getLsbD 9))) :=
  decode_of_row (row := opcodeTable[1]) (List.getElem_mem _) (beq_iff_eq.2 h)

theorem decode_setlvl {w : CmdWord} (h : w &&& 0xFCFF = 0x2000) :
    decode w = .ok (.setlvl (lineOfBit (w.getLsbD 8)) (levelOfBit (w.getLsbD 9))) :=
  decode_of_row (row := opcodeTable[2]) (List.getElem_mem _) (beq_iff_eq.2 h)

theorem decode_readlvl {w : CmdWord} (h : w &&& 0xFEFF = 0x3000) :
    decode w = .ok (.readlvl (lineOfBit (w.getLsbD 8))) :=
  decode_of_row (row := opcodeTable[3]) (List.getElem_mem _) (beq_iff_eq.2 h)

/-! ## SETDIR (R115) -/

section
variable {l : Line} {d : Dir} {s : State}

theorem exec_setdir_run (hb : s.bus = .idle) (h : l = .data → d ≠ s.dataDir → s.clockHeldLow) :
    exec (.setdir l d) s = .next ((s.setDir l d).emitDrive l) := by
  refine runCommand_ok (Cmd.bind_then (rawCheck_pass hb) ?_)
  cases l with
  | clock => exact drvSetDir_clock d s
  | data => exact drvSetDir_data (h rfl)

theorem exec_setdir_addressed (hb : s.bus = .addressed) :
    exec (.setdir l d) s = .next (s.takeFault .rawInTransaction) :=
  runCommand_error (Cmd.bind_error (rawCheck_raise hb))

theorem exec_setdir_clockNotLow (hb : s.bus = .idle) (hd : d ≠ s.dataDir) (hc : ¬ s.clockHeldLow) :
    exec (.setdir .data d) s = .next (s.takeFault .dirChangeClockHigh) :=
  runCommand_error (Cmd.bind_then (rawCheck_pass hb) (drvSetDir_raise hd hc))

end

/-- Settles O14: the run that passes both checks, line by line, and the two checks that raise. -/
theorem setdirSetsOneDirection : Obligations.SetdirSetsOneDirection := by
  unfold Obligations.SetdirSetsOneDirection
  refine ⟨fun w => decode_setdir, fun l d s => ⟨fun hb h => ?_, exec_setdir_addressed, ?_⟩⟩
  · rw [exec_setdir_run hb h]
    cases l with
    | clock => rfl
    | data => rfl
  · rintro hb rfl hd hc
    exact exec_setdir_clockNotLow hb hd hc

/-! ## SETLVL (R116) -/

/-- A driven line takes the level it is set to as its drive (R23). -/
theorem State.setLvl_emitDrive {l : Line} {s : State} (ho : s.dir l = .output) (v : Level) :
    (s.setLvl l v).emitDrive l = (s.setLvl l v).emit (.drive s.now l (driveOf .output v)) := by
  rw [← ho]
  cases l with
  | clock => rfl
  | data => rfl

section
variable {l : Line} {v : Level} {s : State}

theorem exec_setlvl_run (hb : s.bus = .idle) (ho : s.dir l = .output)
    (h : l = .data → v ≠ s.dataLvl → s.clockHeldLow) :
    exec (.setlvl l v) s = .next ((s.setLvl l v).emit (.drive s.now l (driveOf .output v))) := by
  rw [← State.setLvl_emitDrive ho]
  exact runCommand_ok (Cmd.bind_then (rawCheck_pass hb)
    (Cmd.bind_then (spuriousCheck_pass fun hl _ => h hl) (drvSetLvl_output ho)))

theorem exec_setlvl_addressed (hb : s.bus = .addressed) :
    exec (.setlvl l v) s = .next (s.takeFault .rawInTransaction) :=
  runCommand_error (Cmd.bind_error (rawCheck_raise hb))

theorem exec_setlvl_clockNotLow (hb : s.bus = .idle) (ho : s.dataDir = .output) (hv : v ≠ s.dataLvl)
    (hc : ¬ s.clockHeldLow) : exec (.setlvl .data v) s = .next (s.takeFault .spuriousCondition) :=
  runCommand_error (Cmd.bind_then (rawCheck_pass hb) (Cmd.bind_error (spuriousCheck_raise ho hv hc)))

/-- On a released line the second check passes: it looks at a driven DATA only. -/
theorem exec_setlvl_released (hb : s.bus = .idle) (hi : s.dir l = .input) :
    exec (.setlvl l v) s = .next (s.takeFault .levelWhileInput) := by
  have hspur : l = .data → s.dataDir = .output → v ≠ s.dataLvl → s.clockHeldLow := by
    rintro rfl ho -
    exact absurd (ho.symm.trans hi) (by decide)
  exact runCommand_error (Cmd.bind_then (rawCheck_pass hb)
    (Cmd.bind_then (spuriousCheck_pass hspur) (drvSetLvl_raise hi)))

end

/-- Settles O15: the run that passes all three checks, for each line, and the three checks that raise. -/
theorem setlvlSetsOneLevel : Obligations.SetlvlSetsOneLevel := by
  unfold Obligations.SetlvlSetsOneLevel
  refine ⟨fun w => decode_setlvl, fun l v s => ⟨?_, ?_, exec_setlvl_addressed, ?_, exec_setlvl_released⟩⟩
  · rintro hb rfl ho
    exact exec_setlvl_run (l := .clock) hb ho nofun
  · rintro hb rfl ho h
    exact exec_setlvl_run (l := .data) hb ho fun _ => h
  · rintro hb rfl ho hv hc
    exact exec_setlvl_clockNotLow hb ho hv hc

/-! ## READLVL (R117) -/

theorem levelByte_eq_ite (v : Level) : levelByte v = if v = .high then 0x01 else 0x00 := by
  cases v with
  | low => rfl
  | high => rfl

theorem exec_readlvl_driven {l : Line} {s : State} (h : s.dir l = .output) :
    exec (.readlvl l) s = .next ((s.emit (.sample s.now l (s.lvl l))).setResult0 (levelByte (s.lvl l))) :=
  runCommand_ok (Cmd.bind_then (drvRead_driven h) rfl)

theorem exec_readlvl_released {l : Line} {s : State} (h : s.dir l = .input) :
    exec (.readlvl l) s =
      .next (((s.afterDraws 1).emit (.sample s.now l (s.drawAt 0 l))).setResult0 (levelByte (s.drawAt 0 l))) :=
  runCommand_ok (Cmd.bind_then (drvRead_released h) rfl)

/-- Settles O16: the level read is LVL on a driven line and the next draw on a released one. -/
theorem readlvlReportsTheObservedLevel : Obligations.ReadlvlReportsTheObservedLevel := by
  unfold Obligations.ReadlvlReportsTheObservedLevel
  refine ⟨fun w => decode_readlvl, fun l s => ⟨fun h => ?_, fun h => ?_⟩⟩
  · rw [exec_readlvl_driven h, levelByte_eq_ite]
    rfl
  · rw [exec_readlvl_released h, levelByte_eq_ite]
    rfl

/-! ## DELAY (R118) -/

theorem exec_delay (n : Nat) (s : State) : exec (.delay n) s = .next (s.wait n) := runCommand_ok (drvDelay_run n s)

/-- Settles O17: DELAY is `State.wait`, which for 0 µs is no change. -/
theorem delayOnlyAdvancesNow : Obligations.DelayOnlyAdvancesNow := by
  unfold Obligations.DelayOnlyAdvancesNow
  refine ⟨fun w h => ?_, exec_delay, exec_delay 0⟩
  rw [decode_delay h, delayField_eq_mod]

end Sys2Proof.Machine
end

section
/-! PROOF. What the Signal Driver and the framer leave to the engine (R119, R120, R172): BUS, FRAME, the two flags, and
the conditions on the bus. -/

namespace Sys2Proof.Machine

/-! ## The engine's registers (R120) -/

theorem DroveLine.keeps_engine {l : Line} {s t : State} (h : DroveLine l s t) :
    t.bus = s.bus ∧ t.frame = s.frame ∧ t.nack = s.nack ∧ t.fail = s.fail := ⟨h.bus, h.frame, h.nack, h.fail⟩

/-- Settles O43: a fault writes only its record, and each of the four commands that runs keeps all four. -/
theorem signalDriverLeavesTheEngineAlone : Obligations.SignalDriverLeavesTheEngineAlone := by
  unfold Obligations.SignalDriverLeavesTheEngineAlone
  intro l d v n s t i hi h
  obtain ⟨c, rfl⟩ | hr := exec_next h
  · exact ⟨rfl, rfl, rfl, rfl⟩
  · simp only [List.mem_cons, List.not_mem_nil, or_false] at hi
    obtain rfl | rfl | rfl | rfl := hi
    · exact hr.droveLine_setdir.keeps_engine
    · exact hr.droveLine_setlvl.keeps_engine
    · obtain ⟨_, _, rfl⟩ := hr
      exact ⟨rfl, rfl, rfl, rfl⟩
    · obtain rfl := hr
      exact ⟨rfl, rfl, rfl, rfl⟩

/-! ## The conditions on the bus (R119, R172) -/

/-- While CLOCK is held LOW its drive is LOW, so no change of DATA is a condition (R33). -/
theorem State.clockHeldLow_drive {s : State} (h : s.clockHeldLow) : s.drive .clock = .low := by
  obtain ⟨hdir, hlvl⟩ := h
  simp [State.drive, State.dir, State.lvl, driveOf, hdir, hlvl]

/-- A condition is a change of DATA while CLOCK is HIGH: any other drive is no condition (R33). -/
theorem conditionOf_drive_eq_none {cd dd d : Drive} {l : Line} (n : Nat) (h : l = .data → cd = .high → d = dd) :
    conditionOf cd dd (.drive n l d) = none := by
  cases l with
  | clock => rfl
  | data =>
    have hsame : cd = .high → d = dd := h rfl
    cases d with
    | released => rfl
    | low | high =>
      refine if_neg ?_
      rintro ⟨rfl, rfl⟩
      exact absurd (hsame rfl) (by decide)

/-- Driving a line makes no condition where DATA keeps its drive while CLOCK is HIGH. -/
theorem DroveLine.conditions_eq {l : Line} {s t : State} (h : DroveLine l s t) (hs : s.DriveInv)
    (hquiet : l = .data → s.drive .clock = .high → t.drive l = s.drive .data) :
    conditions t.trace = conditions s.trace := by
  rw [h.trace, conditions_append, hs.clock, hs.data, conditionsFrom, conditionOf_drive_eq_none s.now hquiet]
  exact List.append_nil _

/-- SETDIR changes DATA's direction only while CLOCK is held LOW (R110). -/
theorem Ran.setdir_conditions_eq {l : Line} {d : Dir} {s t : State} (h : Ran (.setdir l d) s t) (hs : s.DriveInv) :
    conditions t.trace = conditions s.trace := by
  refine h.droveLine_setdir.conditions_eq hs ?_
  rintro rfl hhigh
  obtain ⟨-, hlow, rfl⟩ := h
  have hkept : d = s.dataDir := by
    by_contra hd
    simp [State.clockHeldLow_drive (hlow rfl hd)] at hhigh
  rw [hkept]
  rfl

/-- SETLVL changes the level of a driven DATA only while CLOCK is held LOW (R116). -/
theorem Ran.setlvl_conditions_eq {l : Line} {v : Level} {s t : State} (h : Ran (.setlvl l v) s t) (hs : s.DriveInv) :
    conditions t.trace = conditions s.trace := by
  refine h.droveLine_setlvl.conditions_eq hs ?_
  rintro rfl hhigh
  obtain ⟨-, -, hlow, rfl⟩ := h
  have hkept : v = s.dataLvl := by
    by_contra hv
    simp [State.clockHeldLow_drive (hlow rfl hv)] at hhigh
  rw [hkept]
  rfl

/-- Bit slots make no condition (R172). -/
theorem RanSlots.conditions_eq {len : Nat} {s t : State} (h : RanSlots len s t) :
    conditions t.trace = conditions s.trace := by
  obtain ⟨xs, n, -, -, hbits, -, ht⟩ := h
  have htrace : t.trace = (s.afterSlots xs).trace := by rw [ht]; rfl
  rw [htrace, State.afterSlots_conditions, slotConditions_bits hbits, List.append_nil]

/-- Of the commands that run, START, STOP and the sequencer's two alone make conditions. -/
theorem Ran.makes_conditions {i : Instr} {s t : State} (h : Ran i s t) (hs : s.DriveInv)
    (hn : conditions t.trace ≠ conditions s.trace) :
    i = .start ∨ i = .stop ∨ i = .initp ∨ ∃ b n, i = .readblk b n := by
  cases i with
  | start => exact .inl rfl
  | stop => exact .inr (.inl rfl)
  | initp => exact .inr (.inr (.inl rfl))
  | readblk b n => exact .inr (.inr (.inr ⟨b, n, rfl⟩))
  | setdir l d => exact absurd (h.setdir_conditions_eq hs) hn
  | setlvl l v => exact absurd (h.setlvl_conditions_eq hs) hn
  | bcd _ _ | delay _ => obtain rfl := h; exact absurd rfl hn
  | readlvl l =>
    obtain ⟨v, n, rfl⟩ := h
    exact absurd ((conditions_append s.trace [_]).trans (List.append_nil _)) hn
  | sendbit _ | recvbit | sendbyte _ | recvbyte | sendack _ | recvack | send _ | recv _ =>
    exact absurd h.1.conditions_eq hn

/-- Settles O46: a fault keeps TRACE, and of the commands that run the four alone make conditions. -/
theorem onlyTheEngineMakesConditions : Obligations.OnlyTheEngineMakesConditions := by
  unfold Obligations.OnlyTheEngineMakesConditions
  intro i s t hs h hn
  obtain ⟨c, rfl⟩ | hr := exec_next h
  · exact absurd rfl hn
  · exact hr.makes_conditions hs hn

end Sys2Proof.Machine
end

section
/-! PROOF. START and STOP (42_conditions.md): the word of each (R84), and each of its runs, the faults in the order of
its checks (R234). -/

namespace Sys2Proof.Machine

/-! ## START (R142) -/

section
variable {s : State}

theorem exec_start_midByte (hf : s.frame ≠ 0) : exec .start s = .next (s.takeFault .frameError) :=
  runCommand_error (Cmd.bind_error (midByteCheck_raise hf))

theorem exec_start_released (hf : s.frame = 0) (hc : s.clockDir = .input) :
    exec .start s = .next (s.takeFault .levelWhileInput) :=
  runCommand_error (Cmd.bind_then (midByteCheck_pass hf) (Cmd.bind_error (condStart_raise hc)))

end

/-- Settles O19: the run that passes the check with CLOCK driven is one START stretch, whose length is summed here, and
leaves FRAME at the 0 it was; the check and the released CLOCK raise. -/
theorem startOpensOrRepeats : Obligations.StartOpensOrRepeats := by
  unfold Obligations.StartOpensOrRepeats
  refine ⟨decodeOfEncodeIsTheCommand .start rfl, fun s => ⟨fun hf hc => ?_, exec_start_midByte, exec_start_released⟩⟩
  rw [exec_start_run hf hc, hf, Nat.add_assoc s.now]
  rfl

/-! ## STOP (R143) -/

section
variable {s : State}

theorem exec_stop_idle (hb : s.bus = .idle) : exec .stop s = .next (s.takeFault .noTransaction) :=
  runCommand_error (Cmd.bind_error (openCheck_raise hb))

theorem exec_stop_midByte (hb : s.bus = .addressed) (hf : s.frame ≠ 0) :
    exec .stop s = .next (s.takeFault .frameError) :=
  runCommand_error (Cmd.bind_then (openCheck_pass hb) (Cmd.bind_error (midByteCheck_raise hf)))

end

/-- Settles O20: the run that passes both checks with CLOCK driven is one STOP stretch, whose length is summed here; the
two checks raise. -/
theorem stopClosesTheTransaction : Obligations.StopClosesTheTransaction := by
  unfold Obligations.StopClosesTheTransaction
  refine ⟨decodeOfEncodeIsTheCommand .stop rfl, fun s => ⟨fun hb hf hc => ?_, exec_stop_idle, exec_stop_midByte⟩⟩
  rw [exec_stop_run hb hf hc, Nat.add_assoc s.now, Nat.add_assoc s.now]
  rfl

end Sys2Proof.Machine
end

section
/-! PROOF. Transactions are well nested, and BUS tells whether one is open (R146): what each command adds to the
conditions in TRACE, and where it leaves BUS. -/

namespace Sys2Proof.Machine

/-! ## Nesting of conditions -/

theorem openAfter_append (o : Bool) (cs ds : List Condition) :
    openAfter o (cs ++ ds) = openAfter (openAfter o cs) ds := by
  induction cs generalizing o with
  | nil => rfl
  | cons c cs ih =>
    cases c with
    | start => exact ih true
    | stop => exact ih false

theorem nestedFrom_append (o : Bool) (cs ds : List Condition) :
    nestedFrom o (cs ++ ds) = (nestedFrom o cs && nestedFrom (openAfter o cs) ds) := by
  induction cs generalizing o with
  | nil => rfl
  | cons c cs ih =>
    cases c with
    | start => exact ih true
    | stop => simp [nestedFrom, openAfter, ih, Bool.and_assoc]

/-- An open transaction may be repeated and then closed. -/
theorem nestedFrom_starts_stop {cs : List Condition} (h : ∀ c ∈ cs, c = .start) :
    nestedFrom true (cs ++ [.stop]) = true := by
  induction cs with
  | nil => rfl
  | cons c cs ih =>
    obtain ⟨rfl, hcs⟩ := List.forall_mem_cons.1 h
    exact ih hcs

/-! ## The invariant over what a command adds -/

/-- The nesting is kept where the conditions added fit the state that BUS was in, and lead to the one that it is in. -/
theorem State.NestInv.append {s t : State} {new : List Condition} (hs : s.NestInv)
    (hcond : (conditions t.trace).map Prod.fst = (conditions s.trace).map Prod.fst ++ new)
    (hnest : nestedFrom (s.bus == .addressed) new = true)
    (hopen : t.bus = .addressed ↔ openAfter (s.bus == .addressed) new = true) : t.NestInv := by
  have hbefore : openAfter false ((conditions s.trace).map Prod.fst) = (s.bus == .addressed) := by
    rw [Bool.eq_iff_iff, beq_iff_eq, hs.bus_open]
  refine ⟨?_, ?_⟩
  · rw [hcond, nestedFrom_append, hs.nested, hbefore, hnest, Bool.and_true]
  · rw [hcond, openAfter_append, hbefore, hopen]

/-- The nesting depends on nothing but the conditions in TRACE and BUS. -/
theorem State.NestInv.of_conditions {s t : State} (hs : s.NestInv) (hcond : conditions t.trace = conditions s.trace)
    (hbus : t.bus = s.bus) : t.NestInv :=
  hs.append (new := []) (by rw [hcond, List.append_nil]) rfl (by rw [hbus]; exact beq_iff_eq.symm)

theorem Ran.nestInv_start {s t : State} (h : Ran .start s t) (hs : s.NestInv) : t.NestInv := by
  obtain ⟨-, -, rfl⟩ := h
  refine hs.append (new := [.start]) ?_ rfl (iff_of_true rfl rfl)
  exact (congrArg _ (s.afterSlots_conditions [.start])).trans List.map_append

theorem Ran.nestInv_stop {s t : State} (h : Ran .stop s t) (hs : s.NestInv) : t.NestInv := by
  obtain ⟨hb, -, -, rfl⟩ := h
  refine hs.append (new := [.stop]) ?_ (by rw [hb]; rfl) (iff_of_false nofun nofun)
  exact (congrArg _ (s.afterSlots_conditions [.stop])).trans List.map_append

/-- A whole transaction is a START, then START conditions only, then a STOP. -/
theorem RanTransaction.conditions_eq {limit : Nat} {s t : State} (h : RanTransaction limit s t) :
    ∃ starts : List Condition, (∀ c ∈ starts, c = .start) ∧
      (conditions t.trace).map Prod.fst = (conditions s.trace).map Prod.fst ++ .start :: (starts ++ [.stop]) := by
  obtain ⟨xs, n, a, -, -, hopen, -, -, ht, -⟩ := h
  have htrace : t.trace = (s.afterSlots (.start :: (xs ++ [.stop]))).trace := by rw [ht]; rfl
  refine ⟨(slotConditions s.params (s.now + slotTime s.params .start) xs).map Prod.fst, ?_, ?_⟩
  · exact List.forall_mem_map.2 (slotConditions_open hopen _ _)
  · rw [htrace, State.afterSlots_conditions, slotConditions, slotConditions_append, List.map_append, List.map_append,
      List.map_append]
    rfl

theorem RanTransaction.nestInv {limit : Nat} {s t : State} (h : RanTransaction limit s t) (hs : s.NestInv) :
    t.NestInv := by
  obtain ⟨starts, hstarts, hcond⟩ := h.conditions_eq
  refine hs.append hcond (nestedFrom_starts_stop hstarts) (iff_of_false ?_ ?_)
  · rw [h.bus, h.idle]
    decide
  · rw [openAfter, openAfter_append]
    exact Bool.false_ne_true

/-- Every command that runs keeps R146: the engine's four make the conditions that go with BUS, and the others neither
make a condition nor move BUS. -/
theorem Ran.nestInv {i : Instr} {s t : State} (h : Ran i s t) (hd : s.DriveInv) (hs : s.NestInv) : t.NestInv := by
  by_cases hi : i = .start ∨ i = .stop ∨ i = .initp ∨ ∃ b n, i = .readblk b n
  · obtain rfl | rfl | rfl | ⟨b, n, rfl⟩ := hi
    · exact h.nestInv_start hs
    · exact h.nestInv_stop hs
    · exact h.1.nestInv hs
    · exact RanTransaction.nestInv h hs
  · have hcond : conditions t.trace = conditions s.trace := by_contra fun hn => hi (h.makes_conditions hd hn)
    have hbus : t.bus = s.bus := by_contra fun hn => hi ((h.moves_bus hn).imp And.left fun hstop => .inl hstop.1)
    exact hs.of_conditions hcond hbus

/-- What every step keeps, for a predicate that a command keeps where TRACE agrees with the lines: the agreement is
itself kept by every step. -/
theorem step_keeps_of_driveInv {P : State → Prop}
    (hown : ∀ u pending replies cmd, P u → P { u with pending := pending, replies := replies, cmd := cmd })
    (hfault : ∀ u c, P u → P (u.takeFault c))
    (hran : ∀ i u v, Ran i u v → u.DriveInv → P u → P v)
    {s t : State} (hreset : ∀ rest, s.pending = .reset :: rest → P (s.popped rest).applyReset)
    (h : step s = .next t) (hd : s.DriveInv) (hs : P s) : P t := by
  refine (step_keeps (P := fun u => u.DriveInv ∧ P u) ?_ ?_ ?_ ?_ h ⟨hd, hs⟩).2
  · exact fun u _ _ _ ⟨hdu, hu⟩ => ⟨hdu.of_lines rfl rfl rfl rfl rfl, hown u _ _ _ hu⟩
  · exact fun u c ⟨hdu, hu⟩ => ⟨hdu.of_lines rfl rfl rfl rfl rfl, hfault u c hu⟩
  · exact fun i u v hr ⟨hdu, hu⟩ => ⟨hr.driveInv hdu, hran i u v hr hdu hu⟩
  · exact fun rest hp => ⟨⟨rfl, rfl⟩, hreset rest hp⟩

/-- Settles O53: a fault touches neither TRACE nor BUS, the reset state has an empty TRACE and is IDLE, and every
command that runs keeps the nesting. -/
theorem stepKeepsTransactionsNested : Obligations.StepKeepsTransactionsNested := by
  unfold Obligations.StepKeepsTransactionsNested
  intro s t hd hs h
  refine step_keeps_of_driveInv (P := State.NestInv) ?_ ?_ (fun i u v => Ran.nestInv) ?_ h hd hs
  · exact fun u _ _ _ hu => hu.of_conditions rfl rfl
  · exact fun u _ hu => hu.of_conditions rfl rfl
  · exact fun rest _ => ⟨rfl, nofun, nofun⟩

end Sys2Proof.Machine
end

section
/-! PROOF. The bus-free time (R145): a STOP stretch ends no sooner than `HALF_HIGH + T_BUF` after its condition, and a
START stretch makes its condition `T_LOW + HALF_HIGH` after it begins. -/

namespace Sys2Proof.Machine

/-! ## Gaps between conditions -/

@[simp] theorem gapsKept_singleton (gap : Nat) (c : Condition × Nat) : gapsKept gap [c] := by
  obtain ⟨_ | _, _⟩ := c
  · trivial
  · trivial

theorem gapsKept_cons_cons {gap : Nat} {c d : Condition × Nat} {cs : List (Condition × Nat)} :
    gapsKept gap (c :: d :: cs) ↔
      (c.1 = .stop → d.1 = .start → c.2 + gap ≤ d.2) ∧ gapsKept gap (d :: cs) := by
  obtain ⟨_ | _, tc⟩ := c <;> obtain ⟨_ | _, td⟩ := d <;> simp [gapsKept]

/-- A condition may follow unless it is a START too near after a STOP. -/
theorem gapsKept_concat {gap : Nat} {c : Condition × Nat} {cs : List (Condition × Nat)} (hk : gapsKept gap cs)
    (hc : c.1 = .start → ∀ ts, cs.getLast? = some (.stop, ts) → ts + gap ≤ c.2) : gapsKept gap (cs ++ [c]) := by
  induction cs with
  | nil => exact gapsKept_singleton gap c
  | cons a cs ih =>
    cases cs with
    | nil =>
      refine gapsKept_cons_cons.2 ⟨fun ha hstart => hc hstart a.2 ?_, gapsKept_singleton gap c⟩
      rw [← ha]
      rfl
    | cons b cs =>
      obtain ⟨hab, hrest⟩ := gapsKept_cons_cons.1 hk
      refine gapsKept_cons_cons.2 ⟨hab, ih hrest fun hstart ts hlast => hc hstart ts ?_⟩
      rw [List.getLast?_cons_cons, hlast]

/-! ## The invariant over the stretches -/

/-- The bus-free time depends on nothing but the conditions in TRACE and the parameters, and holds at any later time. -/
theorem State.FreeTimeInv.of_conditions {s t : State} (hs : s.FreeTimeInv)
    (hcond : conditions t.trace = conditions s.trace) (hparams : t.params = s.params) (hnow : s.now ≤ t.now) :
    t.FreeTimeInv where
  kept := by rw [hcond, hparams]; exact hs.kept
  last ts hts := by
    rw [hcond] at hts
    rw [hparams]
    exact (hs.last ts hts).trans hnow

theorem State.afterSlot_conditions (s : State) (x : Slot) :
    conditions (s.afterSlot x).trace = conditions s.trace ++ slotCondition s.params s.now x := by
  rw [← List.append_nil (slotCondition ..)]
  exact s.afterSlots_conditions [x]

/-- The START's condition comes `T_LOW + HALF_HIGH` after now, the last STOP's at least `HALF_HIGH + T_BUF` before. -/
theorem State.FreeTimeInv.afterStart {s : State} (hs : s.FreeTimeInv) : (s.afterSlot .start).FreeTimeInv where
  kept := by
    rw [s.afterSlot_conditions]
    refine gapsKept_concat hs.kept fun _ ts hts => ?_
    have hlast : ts + s.params.halfHigh + s.params.tBuf ≤ s.now := hs.last ts hts
    show ts + (tBit s.params + s.params.tBuf) ≤ s.now + tLow s.params + s.params.halfHigh
    rw [tBit, tHigh]
    omega
  last ts hts := by
    rw [s.afterSlot_conditions, slotCondition, List.getLast?_concat] at hts
    cases hts

/-- The STOP's condition comes `T_LOW + HALF_HIGH` after now, and the stretch goes on for `HALF_HIGH + T_BUF`. -/
theorem State.FreeTimeInv.afterStop {s : State} (hs : s.FreeTimeInv) : (s.afterSlot .stop).FreeTimeInv where
  kept := by
    rw [s.afterSlot_conditions]
    exact gapsKept_concat hs.kept nofun
  last ts hts := by
    rw [s.afterSlot_conditions, slotCondition, List.getLast?_concat] at hts
    obtain rfl : s.now + tLow s.params + s.params.halfHigh = ts := by simpa using hts
    show s.now + tLow s.params + s.params.halfHigh + s.params.halfHigh + s.params.tBuf ≤
      s.now + (tBit s.params + s.params.tBuf)
    rw [tBit, tHigh]
    omega

theorem State.FreeTimeInv.afterSlot {s : State} (hs : s.FreeTimeInv) (x : Slot) : (s.afterSlot x).FreeTimeInv := by
  cases x with
  | start => exact hs.afterStart
  | stop => exact hs.afterStop
  | driven v | sampled v =>
    exact hs.of_conditions ((s.afterSlot_conditions _).trans (List.append_nil _)) rfl (Nat.le_add_right ..)

theorem State.FreeTimeInv.afterSlots {s : State} (hs : s.FreeTimeInv) (xs : List Slot) :
    (s.afterSlots xs).FreeTimeInv := by
  induction xs generalizing s with
  | nil => exact hs
  | cons x xs ih => exact ih (hs.afterSlot x)

theorem RanTransaction.freeTimeInv {limit : Nat} {s t : State} (h : RanTransaction limit s t) (hs : s.FreeTimeInv) :
    t.FreeTimeInv := by
  obtain ⟨ys, _, _, -, -, -, ht, -⟩ := h.slots
  rw [ht]
  exact (hs.afterSlots ys).of_conditions rfl rfl (Nat.le_refl _)

/-- Every command that runs keeps R145: it makes no condition, or it is a row of stretches. -/
theorem Ran.freeTimeInv {i : Instr} {s t : State} (h : Ran i s t) (hd : s.DriveInv) (hs : s.FreeTimeInv) :
    t.FreeTimeInv := by
  by_cases hcond : conditions t.trace = conditions s.trace
  · exact hs.of_conditions hcond h.grows.params h.grows.now
  · obtain rfl | rfl | rfl | ⟨b, n, rfl⟩ := h.makes_conditions hd hcond
    · obtain ⟨-, -, rfl⟩ := h
      exact hs.afterStart.of_conditions rfl rfl (Nat.le_refl _)
    · obtain ⟨-, -, -, rfl⟩ := h
      exact hs.afterStop.of_conditions rfl rfl (Nat.le_refl _)
    · exact h.1.freeTimeInv hs
    · exact RanTransaction.freeTimeInv h hs

/-- Settles O54: a fault touches neither TRACE nor NOW, the reset state has an empty TRACE, and every command that runs
keeps the bus-free time. -/
theorem stepKeepsTheBusFreeTime : Obligations.StepKeepsTheBusFreeTime := by
  unfold Obligations.StepKeepsTheBusFreeTime
  intro s t hd hs h
  refine step_keeps_of_driveInv (P := State.FreeTimeInv) ?_ ?_ (fun i u v => Ran.freeTimeInv) ?_ h hd hs
  · exact fun u _ _ _ hu => hu.of_conditions rfl rfl (Nat.le_refl _)
  · exact fun u _ hu => hu.of_conditions rfl rfl (Nat.le_refl _)
  · exact fun rest _ => ⟨trivial, nofun⟩

end Sys2Proof.Machine
end

section
/-! PROOF. The acknowledgement convention (R162). -/

namespace Sys2Proof.Machine

theorem eq_flipLevel_iff {v w : Level} : v = flipLevel w ↔ v ≠ w := by
  cases v <;> cases w <;> decide

theorem ackOf_eq_nack_iff {p : Params} {v : Level} : ackOf p v = .nack ↔ v = nackLevel p := by
  simp [ackOf]

/-- There are two levels, so what is not NACK_LEVEL is ACK_LEVEL. -/
theorem ackOf_eq_ack_iff {p : Params} {v : Level} : ackOf p v = .ack ↔ v = p.ackLevel := by
  have hnack : v = nackLevel p ↔ v ≠ p.ackLevel := eq_flipLevel_iff
  simp [ackOf, hnack]

theorem ackOf_ackLevelOf (p : Params) (a : Ack) : ackOf p (ackLevelOf p a) = a := by
  cases a with
  | ack => exact ackOf_eq_ack_iff.2 rfl
  | nack => exact ackOf_eq_nack_iff.2 rfl

/-- The flag of a received acknowledgement is 1 exactly off ACK_LEVEL (R169, R170). -/
theorem ackFlag_ackOf (p : Params) (v : Level) : ackFlag (ackOf p v) = decide (v ≠ p.ackLevel) := by
  have hnack : ackOf p v = .nack ↔ v ≠ p.ackLevel := ackOf_eq_nack_iff.trans eq_flipLevel_iff
  exact decide_eq_decide.2 hnack

/-- Settles O7: the two levels are R162's by definition, the readings are the lemmas above. -/
theorem acknowledgementsAreReadAsPut : Obligations.AcknowledgementsAreReadAsPut := by
  unfold Obligations.AcknowledgementsAreReadAsPut
  intro p
  exact ⟨rfl, rfl, fun v => ackOf_eq_nack_iff, fun v => ackOf_eq_ack_iff, ackOf_ackLevelOf p⟩

end Sys2Proof.Machine
end

section
/-! PROOF. The framer's rules (43_framer.md): the words of its commands (R84), its check in front of a command (R163,
R234), and a row of bit slots in closed form (R160, R161). -/

namespace Sys2Proof.Machine

/-! ## Words -/

theorem byteField_eq_ofNat (w : CmdWord) : byteField w = BitVec.ofNat 8 (w.toNat % 256) := by
  apply BitVec.eq_of_toNat_eq
  simp [byteField]

theorem decode_sendbit {w : CmdWord} (h : w &&& 0xFFFE = 0x7000) : decode w = .ok (.sendbit (w.getLsbD 0)) :=
  decode_of_row (row := opcodeTable[7]) (List.getElem_mem _) (beq_iff_eq.2 h)

theorem decode_sendack {w : CmdWord} (h : w &&& 0xFFFE = 0xB000) : decode w = .ok (.sendack (ackOfBit (w.getLsbD 0))) :=
  decode_of_row (row := opcodeTable[11]) (List.getElem_mem _) (beq_iff_eq.2 h)

theorem decode_recv {w : CmdWord} (h : w &&& 0xFEFF = 0xE000) : decode w = .ok (.recv (ackOfBit (w.getLsbD 8))) :=
  decode_of_row (row := opcodeTable[14]) (List.getElem_mem _) (beq_iff_eq.2 h)

/-! ## The check in front of a command (R163) -/

section
variable {kind : SlotKind} {m : Cmd Unit} {s t : State}

theorem framerCommand_idle (hb : s.bus = .idle) :
    runCommand (framerCheck kind >>= fun _ => m) s = .next (s.takeFault .noTransaction) :=
  runCommand_error (Cmd.bind_error (framerCheck_idle hb))

theorem framerCommand_midByte (hb : s.bus = .addressed) (hf : s.frame ≠ 0) :
    runCommand (framerCheck .byte >>= fun _ => m) s = .next (s.takeFault .frameError) :=
  runCommand_error (Cmd.bind_error (framerCheck_byte hb hf))

theorem framerCommand_notNinth (hb : s.bus = .addressed) (hf : s.frame ≠ 8) :
    runCommand (framerCheck .ack >>= fun _ => m) s = .next (s.takeFault .frameError) :=
  runCommand_error (Cmd.bind_error (framerCheck_ack hb hf))

theorem framerCommand_bit (hb : s.bus = .addressed) (hm : m s = .ok () t) :
    runCommand (framerCheck .bit >>= fun _ => m) s = .next t :=
  runCommand_ok (Cmd.bind_then (framerCheck_pass hb nofun nofun) hm)

theorem framerCommand_byte (hb : s.bus = .addressed) (hf : s.frame = 0) (hm : m s = .ok () t) :
    runCommand (framerCheck .byte >>= fun _ => m) s = .next t :=
  runCommand_ok (Cmd.bind_then (framerCheck_pass hb (fun _ => hf) nofun) hm)

theorem framerCommand_ack (hb : s.bus = .addressed) (hf : s.frame = 8) (hm : m s = .ok () t) :
    runCommand (framerCheck .ack >>= fun _ => m) s = .next t :=
  runCommand_ok (Cmd.bind_then (framerCheck_pass hb nofun fun _ => hf) hm)

end

/-! ## A row of bit slots -/

theorem Slot.isBit.slotTime {x : Slot} (h : x.isBit) (p : Params) : slotTime p x = tBit p := by
  cases x with
  | driven v | sampled v => rfl
  | start | stop => exact h.elim

/-- Every bit slot takes T_BIT. -/
theorem State.afterSlots_now_bits (s : State) {xs : List Slot} (h : ∀ x ∈ xs, x.isBit) :
    (s.afterSlots xs).now = s.now + xs.length * tBit s.params := by
  have htimes : xs.map (slotTime s.params) = List.replicate xs.length (tBit s.params) :=
    List.map_eq_replicate_iff.2 fun x hx => (h x hx).slotTime s.params
  rw [State.afterSlots_now, htimes, List.sum_replicate, smul_eq_mul]

/-- A row of bit slots in closed form, but for the lines, which stand as the last slots left them. -/
theorem State.afterSlots_bits (s : State) {xs : List Slot} {n : Nat} (h : ∀ x ∈ xs, x.isBit) (hn : xs.length = n) :
    s.afterSlots xs =
      { s with
        clockLvl := (s.afterSlots xs).clockLvl
        dataDir := (s.afterSlots xs).dataDir
        dataLvl := (s.afterSlots xs).dataLvl
        frame := s.frame + Fin.ofNat 9 n
        now := s.now + n * tBit s.params
        trace := s.trace ++ waveform s.params s.now s.dataLvl xs } := by
  rw [← hn, ← s.afterSlots_frame_bits h, ← s.afterSlots_now_bits h, ← s.afterSlots_trace xs]
  exact s.afterSlots_frame xs

/-! ## The bits of a byte in the order of the bus (R65) -/

theorem bitsMsbFirst_getElem? (b : Byte) {j : Nat} (hj : j < 8) :
    (bitsMsbFirst b)[j]? = some (levelOfBit (b.getLsbD (7 - j))) := by
  interval_cases j <;> rfl

end Sys2Proof.Machine
end

section
/-! PROOF. The commands of one bit slot (43_framer.md): SENDBIT, RECVBIT, SENDACK, RECVACK, each with its words, its
faults in the order of its check (R234), and its run. -/

namespace Sys2Proof.Machine

variable {s : State}

/-! ## SENDBIT (R164) -/

theorem exec_sendbit_run {b : Bool} (hb : s.bus = .addressed) (hc : s.clockDir = .output) :
    exec (.sendbit b) s = .next (s.afterSlot (.driven (levelOfBit b))) :=
  framerCommand_bit hb (bitSend_run hc)

theorem drv_levelOfBit (b : Bool) : drv (levelOfBit b) = if b then .high else .low := by
  cases b with
  | false => rfl
  | true => rfl

/-- Settles O21: the check raises in IDLE; the run is one driven slot, which the two variants end differently. -/
theorem sendbitDrivesOneSlot : Obligations.SendbitDrivesOneSlot := by
  unfold Obligations.SendbitDrivesOneSlot
  refine ⟨fun w => decode_sendbit, fun b s => ⟨framerCommand_idle, fun hb hc hr => ?_, fun hb hc hr => ?_⟩⟩
  all_goals
    rw [exec_sendbit_run hb hc, ← drv_levelOfBit, State.afterSlot, slotTime, tBit, ← Nat.add_assoc, slotEvents,
      endClock, endDir, hr]
    rfl

/-! ## RECVBIT (R165) -/

theorem exec_recvbit_run (hb : s.bus = .addressed) (hc : s.clockDir = .output) :
    exec .recvbit s =
      .next (((s.afterSlot (.sampled (s.drawAt 0 .data))).afterDraws 1).setResult0 (levelByte (s.drawAt 0 .data))) :=
  framerCommand_bit hb (Cmd.bind_then (bitRecv_run hc) rfl)

/-- Settles O22: the check raises in IDLE; the run is one sampled slot, whose length is summed here. -/
theorem recvbitSamplesOneSlot : Obligations.RecvbitSamplesOneSlot := by
  unfold Obligations.RecvbitSamplesOneSlot
  refine ⟨decodeOfEncodeIsTheCommand .recvbit rfl, fun s => ⟨framerCommand_idle, fun hb hc => ?_⟩⟩
  rw [exec_recvbit_run hb hc, levelByte_eq_ite, Nat.add_assoc s.now]
  rfl

/-! ## SENDACK (R168) -/

theorem exec_sendack_run {a : Ack} (hb : s.bus = .addressed) (hf : s.frame = 8) (hc : s.clockDir = .output) :
    exec (.sendack a) s = .next (s.afterSlots [.driven (ackLevelOf s.params a)]) :=
  framerCommand_ack hb hf (Cmd.bind_then (param_run _ _) (bitSend_run hc))

/-- Settles O27: the check raises twice; the run is one driven slot, which FRAME 8 ends at 0. -/
theorem sendackDrivesTheNinthSlot : Obligations.SendackDrivesTheNinthSlot := by
  unfold Obligations.SendackDrivesTheNinthSlot
  refine ⟨fun w => decode_sendack, fun a s => ⟨framerCommand_idle, framerCommand_notNinth, fun hb hf hc => ?_⟩⟩
  have hbits : ∀ x ∈ [Slot.driven (ackLevelOf s.params a)], x.isBit := List.forall_mem_singleton.2 trivial
  rw [exec_sendack_run hb hf hc, s.afterSlots_bits hbits (n := 1) rfl, hf, Nat.one_mul]
  rfl

/-! ## RECVACK (R169) -/

theorem exec_recvack_run (hb : s.bus = .addressed) (hf : s.frame = 8) (hc : s.clockDir = .output) :
    exec .recvack s =
      .next ((((s.afterSlots [.sampled (s.drawAt 0 .data)]).afterDraws 1).setResult0
        (levelByte (s.drawAt 0 .data))).setNack (ackFlag (ackOf s.params (s.drawAt 0 .data)))) :=
  framerCommand_ack hb hf (Cmd.bind_then (bitRecv_run hc) rfl)

/-- Settles O28: the check raises twice; the run is one sampled slot, which FRAME 8 ends at 0. -/
theorem recvackReportsTheAcknowledgement : Obligations.RecvackReportsTheAcknowledgement := by
  unfold Obligations.RecvackReportsTheAcknowledgement
  refine ⟨decodeOfEncodeIsTheCommand .recvack rfl,
    fun s => ⟨framerCommand_idle, framerCommand_notNinth, fun hb hf hc => ?_⟩⟩
  have hbits : ∀ x ∈ [Slot.sampled (s.drawAt 0 .data)], x.isBit := List.forall_mem_singleton.2 trivial
  rw [exec_recvack_run hb hf hc, s.afterSlots_bits hbits (n := 1) rfl, hf, Nat.one_mul, levelByte_eq_ite, ackFlag_ackOf]
  rfl

end Sys2Proof.Machine
end

section
/-! PROOF. The commands of eight and nine bit slots (43_framer.md): SENDBYTE, RECVBYTE, SEND, RECV, each with its words,
its faults in the order of its check (R234), and its run; and the order of the bits (R174). -/

namespace Sys2Proof.Machine

variable {s : State}

/-! ## SENDBYTE (R166) -/

theorem exec_sendbyte_run {i : Byte} (hb : s.bus = .addressed) (hf : s.frame = 0) (hc : s.clockDir = .output) :
    exec (.sendbyte i) s = .next (s.afterSlots (byteSlots i)) :=
  framerCommand_byte hb hf (byteSend_run hc)

/-- Settles O23: the check raises twice; the run is the eight slots of the byte. -/
theorem sendbyteDrivesEightSlots : Obligations.SendbyteDrivesEightSlots := by
  unfold Obligations.SendbyteDrivesEightSlots
  refine ⟨fun w h => ?_, fun i s => ⟨framerCommand_idle, framerCommand_midByte, fun hb hf hc => ?_⟩⟩
  · rw [decode_sendbyte h, byteField_eq_ofNat]
  · rw [exec_sendbyte_run hb hf hc, s.afterSlots_bits (byteSlots_isBit i) (n := 8) rfl, hf]
    rfl

/-- In a row of bit slots, DATA takes the level of slot `k` HALF_LOW after that slot begins (R160). -/
theorem drive_mem_waveform {xs : List Slot} (h : ∀ x ∈ xs, x.isBit) {k : Nat} {v : Level}
    (hk : xs[k]? = some (.driven v)) (p : Params) (t : Nat) (d : Level) :
    .drive (t + k * tBit p + p.halfLow) .data (drv v) ∈ waveform p t d xs := by
  induction xs generalizing k t d with
  | nil => simp at hk
  | cons x xs ih =>
    obtain ⟨hx, hxs⟩ := List.forall_mem_cons.1 h
    rw [waveform, List.mem_append]
    cases k with
    | zero =>
      obtain rfl : x = .driven v := by simpa using hk
      left
      simp [slotEvents]
    | succ k =>
      right
      have hbegin : t + (k + 1) * tBit p = t + tBit p + k * tBit p := by ring
      rw [hx.slotTime, hbegin]
      exact ih hxs (by simpa using hk) _ _

/-- Settles O24: the events added are the byte's waveform, whose slot `k` (from 0) is driven to bit `7 - k`. -/
theorem sendbyteDrivesBitsInOrder : Obligations.SendbyteDrivesBitsInOrder := by
  unfold Obligations.SendbyteDrivesBitsInOrder
  intro i s hb hf hc
  refine ⟨_, _, exec_sendbyte_run hb hf hc, s.afterSlots_trace _, fun k hk1 hk8 => ?_⟩
  have hslot : (byteSlots i)[k - 1]? = some (.driven (levelOfBit (i.getLsbD (8 - k)))) := by
    have hbit : 8 - k = 7 - (k - 1) := by omega
    show ((bitsMsbFirst i).map Slot.driven)[k - 1]? = _
    rw [List.getElem?_map, bitsMsbFirst_getElem? i (by omega), hbit, Option.map_some]
  rw [← drv_levelOfBit]
  exact drive_mem_waveform (byteSlots_isBit i) hslot s.params s.now s.dataLvl

/-! ## RECVBYTE (R167) -/

theorem exec_recvbyte_run (hb : s.bus = .addressed) (hf : s.frame = 0) (hc : s.clockDir = .output) :
    exec .recvbyte s = .next (((s.afterSlots (s.drawnSlots 0 8)).afterDraws 8).setResult0 (s.drawnByte 0)) :=
  framerCommand_byte hb hf (Cmd.bind_then (byteRecv_run hc) rfl)

/-- Settles O25: the check raises twice; the run is eight sampled slots. -/
theorem recvbyteCollectsEightDraws : Obligations.RecvbyteCollectsEightDraws := by
  unfold Obligations.RecvbyteCollectsEightDraws
  refine ⟨decodeOfEncodeIsTheCommand .recvbyte rfl,
    fun s => ⟨framerCommand_idle, framerCommand_midByte, fun hb hf hc => ?_⟩⟩
  rw [exec_recvbyte_run hb hf hc, s.afterSlots_bits (s.drawnSlots_isBit 0 8) (n := 8) rfl, hf]
  rfl

/-- The digits of an `m`-bit number, taken from the top: the first `n` of them are the number without the others. -/
theorem foldl_testBit_eq_shiftRight {x m n : Nat} (hx : x < 2 ^ m) (hn : n ≤ m) :
    (List.range n).foldl (fun acc j => 2 * acc + (x.testBit (m - 1 - j)).toNat) 0 = x >>> (m - n) := by
  induction n with
  | zero => simp [Nat.shiftRight_eq_div_pow, Nat.div_eq_of_lt hx]
  | succ n ih =>
    have hbelow : m - n = m - 1 - n + 1 := by omega
    rw [List.range_succ, List.foldl_append, ih (Nat.le_of_succ_le hn), List.foldl_cons, List.foldl_nil, hbelow,
      Nat.shiftRight_succ, Nat.toNat_testBit, ← Nat.shiftRight_eq_div_pow, Nat.sub_add_eq, Nat.sub_right_comm]
    exact Nat.div_add_mod _ 2

/-- Draws that are the bits of a byte from bit 7 down make that byte. -/
theorem State.drawnByte_eq {b : Byte} (h : ∀ j < 8, s.drawAt j .data = levelOfBit (b.getLsbD (7 - j))) :
    s.drawnByte 0 = b := by
  have hdigits : (List.range 8).foldl (fun acc j => 2 * acc + (s.drawAt (0 + j) .data).toBit.toNat) 0 = b.toNat := by
    rw [← Nat.shiftRight_zero (n := b.toNat), ← foldl_testBit_eq_shiftRight b.isLt (Nat.le_refl 8)]
    refine List.foldl_ext _ _ _ fun acc j hj => ?_
    rw [Nat.zero_add, h j (List.mem_range.1 hj), levelOfBit_toBit, BitVec.testBit_toNat]
  rw [State.drawnByte, hdigits, BitVec.ofNat_toNat, BitVec.setWidth_eq]

/-- What the environment lists is what is drawn, as far as the list goes (R27). -/
theorem State.drawAt_of_env {vs rest : List Level} {j : Nat} {v : Level} (he : s.env = vs ++ rest)
    (hv : vs[j]? = some v) (l : Line) : s.drawAt j l = v := by
  rw [State.drawAt, he, List.getElem?_append_left (List.getElem?_eq_some_iff.1 hv).1, hv, Option.getD_some]

/-- Settles O26: the eight draws are the byte's bits from bit 7 down, and RECVBYTE makes eight. -/
theorem recvbyteReplaysEveryByte : Obligations.RecvbyteReplaysEveryByte := by
  unfold Obligations.RecvbyteReplaysEveryByte
  intro b s rest hb hf hc henv
  change s.env = bitsMsbFirst b ++ rest at henv
  refine ⟨_, exec_recvbyte_run hb hf hc, State.drawnByte_eq fun j hj => ?_, ?_⟩
  · exact State.drawAt_of_env henv (bitsMsbFirst_getElem? b hj) .data
  · show (s.afterSlots _).env.drop 8 = rest
    rw [State.afterSlots_env, henv]
    rfl

/-! ## SEND (R170) -/

theorem exec_send_run {i : Byte} (hb : s.bus = .addressed) (hf : s.frame = 0) (hc : s.clockDir = .output) :
    exec (.send i) s =
      .next (((s.afterSlots (byteSlots i ++ [.sampled (s.drawAt 0 .data)])).afterDraws 1).noteAck (s.ackAt 0)) :=
  framerCommand_byte hb hf (Cmd.bind_then (xferSend_run hc) rfl)

/-- Settles O29: the check raises twice; the run is the byte's slots and a sampled one, so a whole frame, and one
acknowledgement writes both flags. -/
theorem sendFailsExactlyOnNack : Obligations.SendFailsExactlyOnNack := by
  unfold Obligations.SendFailsExactlyOnNack
  refine ⟨fun w h => ?_, fun i s => ⟨framerCommand_idle, framerCommand_midByte, fun hb hf hc => ?_⟩⟩
  · rw [decode_send h, byteField_eq_ofNat]
  · have hbits : ∀ x ∈ byteSlots i ++ [.sampled (s.drawAt 0 .data)], x.isBit :=
      List.forall_mem_append.2 ⟨byteSlots_isBit i, List.forall_mem_singleton.2 trivial⟩
    rw [exec_send_run hb hf hc, s.afterSlots_bits hbits (n := 9) rfl, ← ackFlag_ackOf, hf]
    rfl

/-! ## RECV (R171) -/

theorem exec_recv_run {a : Ack} (hb : s.bus = .addressed) (hf : s.frame = 0) (hc : s.clockDir = .output) :
    exec (.recv a) s =
      .next (((s.afterSlots (s.drawnSlots 0 8 ++ [.driven (ackLevelOf s.params a)])).afterDraws 8).setResult0
        (s.drawnByte 0)) :=
  framerCommand_byte hb hf (Cmd.bind_then (xferRecv_run hc) rfl)

/-- Settles O30: the check raises twice; the run is eight sampled slots and a driven one, so a whole frame. -/
theorem recvReadsAByteAndAnswers : Obligations.RecvReadsAByteAndAnswers := by
  unfold Obligations.RecvReadsAByteAndAnswers
  refine ⟨fun w => decode_recv, fun a s => ⟨framerCommand_idle, framerCommand_midByte, fun hb hf hc => ?_⟩⟩
  have hbits : ∀ x ∈ s.drawnSlots 0 8 ++ [.driven (ackLevelOf s.params a)], x.isBit :=
    List.forall_mem_append.2 ⟨s.drawnSlots_isBit 0 8, List.forall_mem_singleton.2 trivial⟩
  rw [exec_recv_run hb hf hc, s.afterSlots_bits hbits (n := 9) rfl, hf]
  rfl

end Sys2Proof.Machine
end

section
/-! PROOF. The sequencer's rules (44_sequencer.md): BCD with its words (R84, R204, R205), the checks of INITP and READBLK
(R200, R234), and a whole transaction in closed form (R201). -/

namespace Sys2Proof.Machine

/-! ## BCD (R204, R205) -/

theorem threeBitField_eq_mod (w : CmdWord) : threeBitField w = w.toNat / 256 % 8 := by
  rw [threeBitField, BitVec.extractLsb'_toNat, Nat.shiftRight_eq_div_pow]

theorem exec_bcd (r : Nat) (i : Byte) (s : State) :
    exec (.bcd r i) s = .next ((s.setResult0 (tensDigit (tensWidth s.params r) i)).setResult1 (onesDigit i)) :=
  runCommand_ok rfl

/-- `(1 << w) - 1` is the mask of `w` bits. -/
theorem tensDigit_eq_mod {w : Nat} (hw : w < 8) (i : Byte) :
    tensDigit w i = BitVec.ofNat 8 (i.toNat / 16 % 2 ^ w) := by
  have hpow : 2 ^ w < 2 ^ 8 := Nat.pow_lt_pow_right (by decide) hw
  have hmask : (1#8 <<< w - 1#8).toNat = 2 ^ w - 1 := by
    have hpos : 0 < 2 ^ w := Nat.two_pow_pos w
    simp [BitVec.toNat_sub, Nat.shiftLeft_eq]
    omega
  have hlt : i.toNat / 16 % 2 ^ w < 2 ^ 8 := (Nat.mod_lt _ (Nat.two_pow_pos w)).trans hpow
  apply BitVec.eq_of_toNat_eq
  rw [tensDigit, BitVec.toNat_and, hmask, Nat.and_two_pow_sub_one_eq_mod, BitVec.toNat_ushiftRight,
    Nat.shiftRight_eq_div_pow, BitVec.toNat_ofNat, Nat.mod_eq_of_lt hlt]

theorem onesDigit_eq_mod (i : Byte) : onesDigit i = BitVec.ofNat 8 (i.toNat % 16) := by
  have hlt : i.toNat % 16 < 2 ^ 8 := (Nat.mod_lt _ (by decide)).trans (by decide)
  apply BitVec.eq_of_toNat_eq
  rw [BitVec.toNat_ofNat, Nat.mod_eq_of_lt hlt]
  exact Nat.and_two_pow_sub_one_eq_mod i.toNat 4

theorem tensWidth_eq_ite (p : Params) (r : Nat) :
    tensWidth p r = if r ≤ 1 then 3 else if r = 2 then 2 else ((p.tensWidthUpper[r - 3]?).getD 0).val := by
  match r with
  | 0 | 1 | 2 => rfl
  | r + 3 => simp [tensWidth]

theorem tensWidth_lt (p : Params) (r : Nat) : tensWidth p r < 8 := by
  rw [tensWidth_eq_ite]
  split_ifs
  · decide
  · decide
  · exact (Fin.isLt _).trans (by decide)

/-- Settles O18: the two digits are the fields of the byte, each as a remainder. -/
theorem bcdSplitsTheDigits : Obligations.BcdSplitsTheDigits := by
  unfold Obligations.BcdSplitsTheDigits
  refine ⟨fun w h => ?_, fun r i s _ => ?_⟩
  · rw [decode_bcd h, threeBitField_eq_mod, byteField_eq_ofNat]
  · rw [exec_bcd, tensDigit_eq_mod (tensWidth_lt s.params r), onesDigit_eq_mod, tensWidth_eq_ite]
    rfl

/-! ## The checks of INITP and READBLK (R200, R234) -/

section
variable {m : Cmd Unit} {s : State}

theorem sequence_addressed (hb : s.bus = .addressed) :
    runCommand (seqCheck >>= fun _ => m) s = .next (s.takeFault .transactionOpen) :=
  runCommand_error (Cmd.bind_error (seqCheck_raise hb))

theorem sequence_released (hb : s.bus = .idle) (hc : s.clockDir = .input) :
    runCommand (do seqCheck; condStart; m) s = .next (s.takeFault .levelWhileInput) :=
  runCommand_error (Cmd.bind_then (seqCheck_pass hb) (Cmd.bind_error (condStart_raise hc)))

end

/-- Settles O35: both commands begin with the check and then with the START, whose first statement drives CLOCK. -/
theorem sequencerChecksComeFirst : Obligations.SequencerChecksComeFirst := by
  unfold Obligations.SequencerChecksComeFirst
  intro i count s _ _ x hx
  simp only [List.mem_cons, List.not_mem_nil, or_false] at hx
  obtain rfl | rfl := hx
  · exact ⟨sequence_addressed, sequence_released⟩
  · exact ⟨sequence_addressed, sequence_released⟩

/-! ## A whole transaction (R201) -/

/-- The state in which a sequencer command sends its first byte: after its START, in a transaction. -/
def State.opened (s : State) : State := (s.afterSlot .start).setBus .addressed

/-- The state after a sequencer command from IDLE that ran `xs` between its START and its STOP, made `n` draws, and read
the acknowledgement `a` last. -/
def State.afterTransaction (s : State) (xs : List Slot) (n : Nat) (a : Ack) : State :=
  ((s.afterSlots (.start :: xs ++ [.stop])).afterDraws n).noteAck a

@[simp] theorem State.opened_params (s : State) : s.opened.params = s.params := rfl

@[simp] theorem State.opened_ackAt (s : State) (k : Nat) : s.opened.ackAt k = s.ackAt k := rfl

@[simp] theorem State.opened_drawnByte (s : State) (k : Nat) : s.opened.drawnByte k = s.drawnByte k := rfl

@[simp] theorem State.opened_sentSlots (s : State) (k : Nat) (bytes : List Byte) :
    s.opened.sentSlots k bytes = s.sentSlots k bytes := by
  induction bytes generalizing k with
  | nil => rfl
  | cons i rest ih => exact congrArg (byteSlots i ++ .sampled (s.drawAt k .data) :: ·) (ih (k + 1))

@[simp] theorem State.opened_readSlots (s : State) (k n : Nat) : s.opened.readSlots k n = s.readSlots k n := by
  induction n generalizing k with
  | zero => rfl
  | succ n ih => rw [State.readSlots, ih]; rfl

theorem sum_slotTime_bits (s : State) {xs : List Slot} (h : ∀ x ∈ xs, x.isBit) :
    (xs.map (slotTime s.params)).sum = xs.length * tBit s.params :=
  Nat.add_left_cancel ((s.afterSlots_now xs).symm.trans (s.afterSlots_now_bits h))

/-- A byte with its acknowledgement takes nine bit slots (R267). -/
theorem sum_slotTime_sent (s : State) (k : Nat) (bytes : List Byte) :
    ((s.sentSlots k bytes).map (slotTime s.params)).sum = bytes.length * (9 * tBit s.params) := by
  rw [sum_slotTime_bits s (s.sentSlots_isBit k bytes), s.sentSlots_length]
  ring

theorem sum_slotTime_read (s : State) (k n : Nat) :
    ((s.readSlots k n).map (slotTime s.params)).sum = n * (9 * tBit s.params) := by
  rw [sum_slotTime_bits s (s.readSlots_isBit k n), s.readSlots_length]
  ring

/-- A transaction that leaves FRAME as it was, in closed form. -/
theorem State.afterTransaction_eq (s : State) {xs : List Slot} (n : Nat) (a : Ack)
    (hf : ∀ u : State, (u.afterSlots xs).frame = u.frame) :
    s.afterTransaction xs n a =
      { s with
        clockLvl := .high
        dataDir := .output
        dataLvl := .high
        now := s.now + 2 * tBit s.params + s.params.tBuf + (xs.map (slotTime s.params)).sum
        trace := s.trace ++ waveform s.params s.now s.dataLvl (.start :: xs ++ [.stop])
        nack := ackFlag a
        fail := ackFlag a
        env := s.env.drop n
        draws := s.draws + n } := by
  have hlast : s.afterSlots (.start :: xs ++ [.stop]) = (s.afterSlots (.start :: xs)).afterSlot .stop :=
    s.afterSlots_append _ _
  have hclockLvl : (s.afterSlots (.start :: xs ++ [.stop])).clockLvl = .high := by rw [hlast]; rfl
  have hdataDir : (s.afterSlots (.start :: xs ++ [.stop])).dataDir = .output := by rw [hlast]; rfl
  have hdataLvl : (s.afterSlots (.start :: xs ++ [.stop])).dataLvl = .high := by rw [hlast]; rfl
  have hframe : (s.afterSlots (.start :: xs ++ [.stop])).frame = s.frame :=
    keepsFrame_append (keepsFrame_start hf) (fun _ => rfl) s
  have hnow : (s.afterSlots (.start :: xs ++ [.stop])).now =
      s.now + 2 * tBit s.params + s.params.tBuf + (xs.map (slotTime s.params)).sum := by
    rw [s.afterSlots_now]
    simp [slotTime]
    ring
  rw [State.afterTransaction, s.afterSlots_frame, hclockLvl, hdataDir, hdataLvl, hframe, hnow, s.afterSlots_trace]
  rfl

/-- The STOP of a transaction that was begun in IDLE ends it in IDLE. -/
theorem State.afterTransaction_setBus {s : State} (hb : s.bus = .idle) (xs : List Slot) (n : Nat) (a : Ack) :
    ((s.afterTransaction xs n a).setBus .addressed).setBus .idle = s.afterTransaction xs n a := by
  have hbus : (s.afterTransaction xs n a).bus = .idle := (s.afterSlots_bus _).trans hb
  rw [← hbus]
  rfl

/-- The opening that INITP and READBLK share (R200, R202, R203). -/
theorem sequence_opens {m : Cmd Unit} {s : State} (hb : s.bus = .idle) (hc : s.clockDir = .output) :
    (do seqCheck; condStart; update fun s => s.setBus .addressed; m) s = m s.opened :=
  Cmd.bind_then (seqCheck_pass hb) (Cmd.bind_then (condStart_run hc) (Cmd.bind_ok (update_run _ _)))

theorem opened_close {s : State} {xs : List Slot} {n : Nat} {a : Ack} (hc : s.clockDir = .output) :
    condStop (s.opened.within xs n a) = .ok () ((s.afterTransaction xs n a).setBus .addressed) :=
  within_close hc

end Sys2Proof.Machine
end

section
/-! PROOF. INITP (R202): its run, with every byte acknowledged and with a first NACK. -/

namespace Sys2Proof.Machine

variable {s : State} {xs : List Slot} {n : Nat} {a : Ack}

/-- The bytes that INITP sends, in order (R66, R202). -/
def initpBytes (p : Params) : List Byte := devW p :: p.initStart :: p.initValues

theorem initpBytes_length (p : Params) : (initpBytes p).length = 2 + p.initValues.length := Nat.add_comm _ 2

theorem exec_initp_run (hb : s.bus = .idle) (hc : s.clockDir = .output)
    (h : sendUntilNack (initpBytes s.params) s.opened = .ok () (s.opened.within xs n a)) :
    exec .initp s = .next (s.afterTransaction xs n a) := by
  refine runCommand_ok ((sequence_opens hb hc).trans (Cmd.bind_then (param_run _ _) (Cmd.bind_then h
    (Cmd.bind_then (opened_close hc) ?_))))
  rw [update_run, State.afterTransaction_setBus hb]

theorem exec_initp_acks (hb : s.bus = .idle) (hc : s.clockDir = .output)
    (ha : ∀ j, j < (initpBytes s.params).length → s.ackAt j = .ack) :
    exec .initp s =
      .next (s.afterTransaction (s.sentSlots 0 (initpBytes s.params)) (initpBytes s.params).length .ack) := by
  rw [← s.opened_sentSlots]
  exact exec_initp_run hb hc (sendUntilNack_acks hc ha)

theorem exec_initp_nack {k : Nat} (hb : s.bus = .idle) (hc : s.clockDir = .output)
    (hk : k < (initpBytes s.params).length) (ha : ∀ j, j < k → s.ackAt j = .ack) (hn : s.ackAt k = .nack) :
    exec .initp s =
      .next (s.afterTransaction (s.sentSlots 0 ((initpBytes s.params).take (k + 1))) (k + 1) .nack) := by
  rw [← s.opened_sentSlots]
  exact exec_initp_run hb hc (sendUntilNack_nack hc hk ha hn)

/-- Settles O31: the run sends every byte, and the transaction is put in closed form. -/
theorem initpWritesTheWholeBlock : Obligations.InitpWritesTheWholeBlock := by
  unfold Obligations.InitpWritesTheWholeBlock
  refine ⟨decodeOfEncodeIsTheCommand .initp rfl, fun s hb hc ha => ?_⟩
  rw [← initpBytes_length] at ha ⊢
  rw [exec_initp_acks hb hc ha, s.afterTransaction_eq _ _ (keepsFrame_sent _ _ _), sum_slotTime_sent]
  rfl

/-- Settles O32: the run sends the bytes up to the one that is not acknowledged, `k + 1` of them. -/
theorem initpStopsAtTheFirstNack : Obligations.InitpStopsAtTheFirstNack := by
  unfold Obligations.InitpStopsAtTheFirstNack
  intro s k hb hc hk ha hn
  rw [← initpBytes_length] at hk
  rw [exec_initp_nack hb hc hk ha hn, s.afterTransaction_eq _ _ (keepsFrame_sent _ _ _), sum_slotTime_sent,
    List.length_take_of_le hk]
  rfl

end Sys2Proof.Machine
end

section
/-! PROOF. READBLK (R203): its run, with its three address bytes acknowledged and with a NACK of each. -/

namespace Sys2Proof.Machine

/-! ## The block in RBUF (R44) -/

/-- RBUF from entry `k` on holds the bytes of the list, and elsewhere what it held. -/
theorem fillFrom_getElem (k : Nat) (bytes : List Byte) (buf : Vector Byte 8) {j : Nat} (hj : j < 8) :
    (fillFrom k bytes buf)[j] = if k ≤ j then (bytes[j - k]?).getD buf[j] else buf[j] := by
  induction bytes generalizing k buf with
  | nil => simp [fillFrom]
  | cons b rest ih =>
    rw [fillFrom, ih, Vector.getElem_setIfInBounds hj]
    obtain hlt | rfl | hgt := lt_trichotomy j k
    · simp [hlt.ne', hlt.not_ge, (hlt.trans (Nat.lt_succ_self k)).not_ge]
    · simp
    · have hskip : j - k = j - (k + 1) + 1 := by omega
      simp [hgt.ne, hgt.le, Nat.succ_le_of_lt hgt, hskip]

theorem fillFrom_range_map (f : Nat → Byte) (count : Nat) (buf : Vector Byte 8) :
    fillFrom 0 ((List.range count).map f) buf =
      Vector.ofFn fun k : Fin 8 => if k.val < count then f k.val else buf[k] := by
  ext j hj
  rw [fillFrom_getElem _ _ _ hj, if_pos (Nat.zero_le j), Vector.getElem_ofFn]
  by_cases hlt : j < count
  · simp [hlt]
  · simp [hlt]

/-! ## The run -/

section
variable {s : State} {i : Byte} {count : Nat}

theorem exec_readblk_run {xs : List Slot} {n : Nat} {a : Ack} {got : Option (List Byte)} (hb : s.bus = .idle)
    (hc : s.clockDir = .output) (h : readBytes i count s.opened = .ok got (s.opened.within xs n a)) :
    exec (.readblk i count) s = .next (storeRead got (s.afterTransaction xs n a)) := by
  refine runCommand_ok ((sequence_opens hb hc).trans (Cmd.bind_then h (Cmd.bind_then (opened_close hc)
    (Cmd.bind_then (update_run _ _) ?_))))
  rw [update_run, State.afterTransaction_setBus hb]

theorem exec_readblk_acks (hb : s.bus = .idle) (hc : s.clockDir = .output) (h0 : s.ackAt 0 = .ack)
    (h1 : s.ackAt 1 = .ack) (h2 : s.ackAt 2 = .ack) :
    exec (.readblk i count) s =
      .next ((s.afterTransaction
        (s.sentSlots 0 [devW s.params, i] ++ .start :: s.sentSlots 2 [devR s.params] ++ s.readSlots 3 count)
        (3 + 8 * count) .ack).storeBlock ((List.range count).map fun k => s.drawnByte (3 + 8 * k))) := by
  simpa only [State.opened_sentSlots, State.opened_readSlots, State.opened_params, State.opened_drawnByte, storeRead] using
    exec_readblk_run hb hc (readBytes_acks hc h0 h1 h2)

theorem exec_readblk_nack_devW (hb : s.bus = .idle) (hc : s.clockDir = .output) (h0 : s.ackAt 0 = .nack) :
    exec (.readblk i count) s = .next (s.afterTransaction (s.sentSlots 0 [devW s.params]) 1 .nack) := by
  simpa only [State.opened_sentSlots, State.opened_params, storeRead] using
    exec_readblk_run hb hc (readBytes_nack_devW hc h0)

theorem exec_readblk_nack_register (hb : s.bus = .idle) (hc : s.clockDir = .output) (h0 : s.ackAt 0 = .ack)
    (h1 : s.ackAt 1 = .nack) :
    exec (.readblk i count) s = .next (s.afterTransaction (s.sentSlots 0 [devW s.params, i]) 2 .nack) := by
  simpa only [State.opened_sentSlots, State.opened_params, storeRead] using
    exec_readblk_run hb hc (readBytes_nack_register hc h0 h1)

theorem exec_readblk_nack_devR (hb : s.bus = .idle) (hc : s.clockDir = .output) (h0 : s.ackAt 0 = .ack)
    (h1 : s.ackAt 1 = .ack) (h2 : s.ackAt 2 = .nack) :
    exec (.readblk i count) s =
      .next (s.afterTransaction (s.sentSlots 0 [devW s.params, i] ++ .start :: s.sentSlots 2 [devR s.params])
        3 .nack) := by
  simpa only [State.opened_sentSlots, State.opened_params, storeRead] using
    exec_readblk_run hb hc (readBytes_nack_devR hc h0 h1 h2)

end

/-- The address bytes of a READBLK with its repeated START leave FRAME as it was. -/
theorem keepsFrame_address (s : State) (i : Byte) (u : State) :
    (u.afterSlots (s.sentSlots 0 [devW s.params, i] ++ .start :: s.sentSlots 2 [devR s.params])).frame = u.frame :=
  keepsFrame_append (keepsFrame_sent _ _ _) (keepsFrame_start (keepsFrame_sent _ _ _)) u

/-- Three bytes with their acknowledgements, and a START (R267). -/
theorem sum_slotTime_address (s : State) (i : Byte) :
    ((s.sentSlots 0 [devW s.params, i] ++ .start :: s.sentSlots 2 [devR s.params]).map (slotTime s.params)).sum =
      tBit s.params + 27 * tBit s.params := by
  rw [List.map_append, List.sum_append, List.map_cons, List.sum_cons, sum_slotTime_sent, sum_slotTime_sent, slotTime]
  simp only [List.length_cons, List.length_nil]
  ring

/-- Settles O33: the run reads the block, the transaction is put in closed form, and the block in RBUF is told entry by
entry. -/
theorem readblkReadsTheBlock : Obligations.ReadblkReadsTheBlock := by
  unfold Obligations.ReadblkReadsTheBlock
  refine ⟨fun w h => ?_, fun i count s _ _ hb hc h0 h1 h2 => ?_⟩
  · rw [decode_readblk h, threeBitField_eq_mod, byteField_eq_ofNat]
  · have hnow : s.now + 3 * tBit s.params + s.params.tBuf + (3 + count) * (9 * tBit s.params) =
        s.now + 2 * tBit s.params + s.params.tBuf +
          (tBit s.params + 27 * tBit s.params + count * (9 * tBit s.params)) := by ring
    rw [exec_readblk_acks hb hc h0 h1 h2,
      s.afterTransaction_eq _ _ (keepsFrame_append (keepsFrame_address s i) (keepsFrame_read _ _ _)), List.map_append,
      List.sum_append, sum_slotTime_address, sum_slotTime_read, hnow, ← fillFrom_range_map (fun k => s.drawnByte (3 + 8 * k))]
    rfl

/-- Settles O34: each run ends with the byte that is not acknowledged, and its transaction is put in closed form. -/
theorem readblkFailureKeepsRbuf : Obligations.ReadblkFailureKeepsRbuf := by
  unfold Obligations.ReadblkFailureKeepsRbuf
  intro i count s _ _ hb hc
  refine ⟨fun h0 => ?_, fun h0 h1 => ?_, fun h0 h1 h2 => ?_⟩
  · rw [exec_readblk_nack_devW hb hc h0, s.afterTransaction_eq _ _ (keepsFrame_sent _ _ _), sum_slotTime_sent,
      List.length_singleton, Nat.one_mul]
    rfl
  · rw [exec_readblk_nack_register hb hc h0 h1, s.afterTransaction_eq _ _ (keepsFrame_sent _ _ _), sum_slotTime_sent,
      ← Nat.mul_assoc]
    rfl
  · have hnow : s.now + 3 * tBit s.params + s.params.tBuf + 27 * tBit s.params =
        s.now + 2 * tBit s.params + s.params.tBuf + (tBit s.params + 27 * tBit s.params) := by ring
    rw [exec_readblk_nack_devR hb hc h0 h1 h2, s.afterTransaction_eq _ _ (keepsFrame_address s i),
      sum_slotTime_address, hnow]
    rfl

end Sys2Proof.Machine
end

section
/-! PROOF. INITP and READBLK that do not fault add START conditions and then one STOP (R201, R207). -/

namespace Sys2Proof.Machine

/-- The last stretch of a transaction is its STOP, whose condition lies `HALF_HIGH + T_BUF` before its end (R141). -/
theorem RanTransaction.closes_with_stop {limit : Nat} {s t : State} (h : RanTransaction limit s t) :
    ∃ starts : List (Condition × Nat), (∀ c ∈ starts, c.1 = .start) ∧ starts ≠ [] ∧
      conditions t.trace = conditions s.trace ++ starts ++ [(.stop, t.now - s.params.tBuf - s.params.halfHigh)] := by
  obtain ⟨xs, n, a, -, -, hopen, -, -, ht, -⟩ := h
  have htrace : t.trace = (s.afterSlots (.start :: xs ++ [.stop])).trace := by rw [ht]; rfl
  have hnow : t.now = s.now + ((.start :: xs).map (slotTime s.params)).sum + (tBit s.params + s.params.tBuf) := by
    have hslots : t.now = (s.afterSlots (.start :: xs ++ [.stop])).now := by rw [ht]; rfl
    rw [hslots, s.afterSlots_now, List.map_append, List.sum_append, Nat.add_assoc]
    rfl
  have hstop : t.now - s.params.tBuf - s.params.halfHigh =
      s.now + ((.start :: xs).map (slotTime s.params)).sum + tLow s.params + s.params.halfHigh := by
    rw [hnow, tBit, tHigh]
    omega
  have hstarts : ∀ x ∈ Slot.start :: xs, x.isOpen := List.forall_mem_cons.2 ⟨trivial, hopen⟩
  refine ⟨slotConditions s.params s.now (.start :: xs), slotConditions_open hstarts _ _, nofun, ?_⟩
  rw [htrace, s.afterSlots_conditions, slotConditions_append, ← List.append_assoc, hstop]
  rfl

/-- A transaction writes to TRACE, at least its START. -/
theorem State.afterTransaction_trace_ne (s : State) (xs : List Slot) (n : Nat) (a : Ack) :
    (s.afterTransaction xs n a).trace ≠ s.trace := by
  have htrace : (s.afterTransaction xs n a).trace =
      s.trace ++ waveform s.params s.now s.dataLvl (.start :: xs ++ [.stop]) := s.afterSlots_trace _
  rw [htrace, Ne, List.append_right_eq_self]
  nofun

theorem exec_ran_of_trace {i : Instr} {s t : State} (h : exec i s = .next t) (ht : t.trace ≠ s.trace) : Ran i s t := by
  obtain ⟨c, rfl⟩ | hr := exec_next h
  · exact absurd rfl ht
  · exact hr

/-- Whatever is drawn, the bytes of a READBLK are read, or it goes to its failure, in the transaction it has open. -/
theorem readBytes_some {i : Byte} {count : Nat} {s : State} (h : s.clockDir = .output) :
    ∃ xs n a got, readBytes i count s = .ok got (s.within xs n a) := by
  cases h0 : s.ackAt 0 with
  | nack => exact ⟨_, _, _, _, readBytes_nack_devW h h0⟩
  | ack =>
    cases h1 : s.ackAt 1 with
    | nack => exact ⟨_, _, _, _, readBytes_nack_register h h0 h1⟩
    | ack =>
      cases h2 : s.ackAt 2 with
      | nack => exact ⟨_, _, _, _, readBytes_nack_devR h h0 h1 h2⟩
      | ack => exact ⟨_, _, _, _, readBytes_acks h h0 h1 h2⟩

section
variable {s t : State}

theorem exec_initp_transaction (hb : s.bus = .idle) (hc : s.clockDir = .output) (h : exec .initp s = .next t) :
    ∃ limit, RanTransaction limit s t := by
  obtain ⟨k, n, a, hrun⟩ := sendUntilNack_some (x := devW s.params) (rest := s.params.initStart :: s.params.initValues)
    (s := s.opened) hc
  refine ⟨_, (exec_ran_of_trace h ?_).1⟩
  rw [exec_initp_run hb hc hrun, Host.Outcome.next.injEq] at h
  rw [← h]
  exact s.afterTransaction_trace_ne _ _ _

theorem exec_readblk_transaction {i : Byte} {count : Nat} (hb : s.bus = .idle) (hc : s.clockDir = .output)
    (h : exec (.readblk i count) s = .next t) : ∃ limit, RanTransaction limit s t := by
  obtain ⟨xs, n, a, got, hrun⟩ := readBytes_some (i := i) (count := count) (s := s.opened) hc
  refine ⟨_, exec_ran_of_trace h ?_⟩
  rw [exec_readblk_run hb hc hrun, Host.Outcome.next.injEq] at h
  rw [← h]
  cases got with
  | none | some bytes => exact s.afterTransaction_trace_ne xs n a

end

/-- Settles O47: in IDLE with CLOCK driven both commands run a whole transaction. -/
theorem sequencesCloseWithOneStop : Obligations.SequencesCloseWithOneStop := by
  unfold Obligations.SequencesCloseWithOneStop
  intro i count s t _ _ hb hc x hx h
  have hran : ∃ limit, RanTransaction limit s t := by
    simp only [List.mem_cons, List.not_mem_nil, or_false] at hx
    obtain rfl | rfl := hx
    · exact exec_initp_transaction hb hc h
    · exact exec_readblk_transaction hb hc h
  obtain ⟨limit, hran⟩ := hran
  exact ⟨hran.bus.trans hb, hran.frame, hran.closes_with_stop⟩

end Sys2Proof.Machine
end

section
/-! PROOF. Command entry and faults (60_exceptions.md): every command ends (R237), a fault leaves nothing but its record
(R232, R233), and a word written to CMD is dropped, faults or runs its command (R230). -/

namespace Sys2Proof.Machine

/-! ## Every command -/

/-- Settles O36: a command that takes a fault has a next state, and so has one that runs. -/
theorem everyCommandEnds : Obligations.EveryCommandEnds := by
  unfold Obligations.EveryCommandEnds
  intro i s
  obtain ⟨c, hfault⟩ | ⟨t, hran, -⟩ := exec_cases i s
  · exact ⟨s.takeFault c, hfault⟩
  · exact ⟨t, hran⟩

/-- Settles O37: a command that runs keeps STATUS.FAULT clear, so one that ends with it set has taken a fault and done
nothing else. -/
theorem faultsChangeOnlyTheirRecord : Obligations.FaultsChangeOnlyTheirRecord := by
  unfold Obligations.FaultsChangeOnlyTheirRecord
  intro i s t hclear h hset
  obtain ⟨c, rfl⟩ | hran := exec_next h
  · exact ⟨c, rfl, c.code_range⟩
  · have hkept : t.fault = false := hran.sameRecord.fault.trans hclear
    rw [hkept] at hset
    cases hset

/-! ## A step that serves a write to CMD -/

section
variable {s : State} {w : CmdWord} {rest : List HostAccess}

theorem step_command_dropped (hp : s.pending = .write 0 2 w :: rest) (hf : s.fault = true) :
    step s = .next (s.popped rest) :=
  (step_command hp).trans (commandEntry_dropped hf)

theorem step_command_runs (hp : s.pending = .write 0 2 w :: rest) (hf : s.fault = false) :
    step s = endCommand (runWord w ((s.popped rest).setCmd w)) :=
  (step_command hp).trans (commandEntry_runs hf)

theorem step_command_illegal {k : Illegal} (hp : s.pending = .write 0 2 w :: rest) (hf : s.fault = false)
    (hd : decode w = .error k) :
    step s = .next ((((s.popped rest).setCmd w).takeFault .illegalCmd).setCmd 0x0000) := by
  rw [step_command_runs hp hf, runWord_illegal hd, endCommand]

theorem step_command_legal {i : Instr} {t : State} (hp : s.pending = .write 0 2 w :: rest) (hf : s.fault = false)
    (hd : decode w = .ok i) (h : exec i ((s.popped rest).setCmd w) = .next t) :
    step s = .next (t.setCmd 0x0000) := by
  rw [step_command_runs hp hf, runWord_legal hd, h, endCommand]

end

/-- Settles O8, one lemma for each of the three cases. -/
theorem commandEntryDropsFaultsOrRuns : Obligations.CommandEntryDropsFaultsOrRuns := by
  unfold Obligations.CommandEntryDropsFaultsOrRuns
  intro s w rest hp
  refine ⟨step_command_dropped hp, fun hf hillegal => ?_, fun hf i hd t h => step_command_legal hp hf hd h⟩
  obtain ⟨k, hd⟩ := hillegal
  exact step_command_illegal hp hf hd

/-- Settles O9: the decoded command has a next state (O36), and the step is that state with CMD cleared. -/
theorem stepRunsTheDecodedCommand : Obligations.StepRunsTheDecodedCommand := by
  unfold Obligations.StepRunsTheDecodedCommand
  intro s w rest i hp hf hd
  obtain ⟨t, h⟩ := everyCommandEnds i ((s.popped rest).setCmd w)
  exact ⟨t, h, step_command_legal hp hf hd h⟩

end Sys2Proof.Machine
end

section
/-! PROOF. How long the commands take (R237, R267), and what reset leaves alone (R45, R260). -/

namespace Sys2Proof.Machine

/-! ## Durations (R267) -/

theorem DroveLine.now {l : Line} {s t : State} (h : DroveLine l s t) : t.now = s.now := by rw [h.eq]

theorem RanSlots.now {len : Nat} {s t : State} (h : RanSlots len s t) : t.now = s.now + len * tBit s.params := by
  obtain ⟨xs, n, -, -, hbits, hlen, ht⟩ := h
  rw [ht, ← hlen]
  exact s.afterSlots_now_bits hbits

/-- Of the four kinds of stretch, a STOP alone takes longer than T_BIT (R9, R141). -/
theorem Slot.isOpen.slotTime {x : Slot} (h : x.isOpen) (p : Params) : slotTime p x = tBit p := by
  cases x with
  | start | driven v | sampled v => rfl
  | stop => exact h.elim

theorem sum_slotTime_open {xs : List Slot} (h : ∀ x ∈ xs, x.isOpen) (p : Params) :
    (xs.map (slotTime p)).sum = xs.length * tBit p := by
  have htimes : xs.map (slotTime p) = List.replicate xs.length (tBit p) :=
    List.map_eq_replicate_iff.2 fun x hx => (h x hx).slotTime p
  rw [htimes, List.sum_replicate, smul_eq_mul]

/-- The START and the STOP of a transaction add two clock periods and T_BUF to the stretches between them. -/
theorem RanTransaction.now_le {limit : Nat} {s t : State} (h : RanTransaction limit s t) :
    t.now ≤ s.now + 2 * tBit s.params + s.params.tBuf + limit * tBit s.params := by
  obtain ⟨xs, n, a, -, -, hopen, hlen, hframe, ht, -⟩ := h
  have hnow : t.now = s.now + 2 * tBit s.params + s.params.tBuf + xs.length * tBit s.params := by
    rw [← sum_slotTime_open hopen, ht]
    exact congrArg State.now (s.afterTransaction_eq n a hframe)
  rw [hnow]
  exact Nat.add_le_add_left (Nat.mul_le_mul_right _ hlen) _

/-- Settles O45: a fault takes no time, and of the commands that run all but the two sequences take their row's time
exactly. -/
theorem commandsKeepTheirTimeBudget : Obligations.CommandsKeepTheirTimeBudget := by
  unfold Obligations.CommandsKeepTheirTimeBudget
  intro i s t h
  obtain ⟨c, rfl⟩ | hr := exec_next h
  · exact Nat.le_add_right ..
  cases i with
  | bcd r b => obtain rfl := hr; exact Nat.le_refl _
  | setdir l d => exact hr.droveLine_setdir.now.le
  | setlvl l v => exact hr.droveLine_setlvl.now.le
  | readlvl l => obtain ⟨_, _, rfl⟩ := hr; exact Nat.le_refl _
  | delay n => obtain rfl := hr; exact Nat.le_refl _
  | start => obtain ⟨-, -, rfl⟩ := hr; exact Nat.le_refl _
  | stop => obtain ⟨-, -, -, rfl⟩ := hr; exact Nat.le_refl _
  | sendbit _ | recvbit | sendack _ | recvack => simpa only [Nat.one_mul] using hr.1.now.le
  | sendbyte _ | recvbyte | send _ | recv _ => exact hr.1.now.le
  | initp =>
    refine hr.1.now_le.trans_eq ?_
    dsimp only
    ring
  | readblk b count =>
    refine (RanTransaction.now_le hr).trans_eq ?_
    dsimp only
    ring

/-! ## Reset (R260) -/

/-- Settles O13: reset takes these fields from the state it is applied to; with no access pending a step changes
nothing. -/
theorem resetKeepsTheEnvironment : Obligations.ResetKeepsTheEnvironment := by
  unfold Obligations.ResetKeepsTheEnvironment
  exact ⟨fun s rest hp => ⟨(s.popped rest).applyReset, step_reset hp, rfl, rfl, rfl, rfl, rfl⟩, fun s => step_idle⟩

end Sys2Proof.Machine
end
